-- ==== Sys2Proof/Word.lean ====
section
/-! DEFINITION. The unit of every channel of the block (spec/20_memory.md R61, R62): the byte. Text is what the
log shows (R196); the block has no wider word, no address and no alignment (R50, R62). -/

namespace Sys2Proof

/-- "A *byte* is 8 bits, an unsigned value 0 to 255" (00_scope.md R8). -/
abbrev Byte := BitVec 8

/-- Text of the log stream: a sequence of characters (R196). -/
abbrev Text := List Char

end Sys2Proof
end

