-- ==== Sys2Proof/Config.lean ====
section
/-! DEFINITION. What is fixed for a run: the constants of spec/00_scope.md R5, the types of the reset-time parameters
(R6, 10_state.md R40), and the free values, which have no body, so that no proof can see one. The parameters are plain
data and stand in the state (field `params`), so that every statement holds for every choice of them. -/

namespace Sys2Proof

/-! ## The data types of R40 -/

/-- A logic level of a mode-select line, `v ∈ {0, 1}` (20_memory.md R57). -/
inductive Level where
  | zero
  | one
  deriving DecidableEq, Repr, Inhabited

/-- The mode-select lines, `p ∈ {A, B}` (20_memory.md R57). -/
inductive Line where
  | a
  | b
  deriving DecidableEq, Repr, Inhabited

/-- The indicator's two values (10_state.md R27). -/
inductive OnOff where
  | on
  | off
  deriving DecidableEq, Repr, Inhabited

/-- The module's operating modes; PowerSaving and Sleep are "reserved ... unused in this scope" (00_scope.md R12). -/
inductive OperatingMode where
  | normal
  | configuration
  | powerSaving
  | sleep
  deriving DecidableEq, Repr, Inhabited

/-- `AIR_RATES_BPS` (00_scope.md R5). -/
inductive AirRate where
  | bps300
  | bps1200
  | bps2400
  | bps4800
  | bps9600
  | bps19200
  deriving DecidableEq, Repr, Inhabited

/-- `POWER_LEVELS_DBM`, a closed type (00_scope.md R5, 10_state.md R40). -/
inductive PowerLevel where
  | dbm30
  | dbm27
  | dbm24
  | dbm21
  deriving DecidableEq, Repr, Inhabited

/-- `DRIVE_MODE`, a closed type (10_state.md R40). -/
inductive DriveMode where
  | pushPull
  | openDrain
  deriving DecidableEq, Repr, Inhabited

/-- The serialized ConfigRegisters, in the order of 10_state.md R28. -/
structure ConfigRegisters where
  addh : Byte
  addl : Byte
  sped : Byte
  chan : Byte
  option : Byte
  deriving DecidableEq, Repr, Inhabited

/-- "`PinId` is an opaque platform pin identifier with decidable equality" (10_state.md R40); here a number. -/
abbrev PinId := Nat

/-- `PinAssignment` (10_state.md R40). The block reads `aux_pin` never (R41). -/
structure PinAssignment where
  txPin : PinId
  rxPin : PinId
  pinA : PinId
  pinB : PinId
  auxPin : Option PinId
  indPin : Option PinId
  indIsPixel : Bool
  uartIndex : Nat
  deriving DecidableEq, Repr, Inhabited

/-- `INDICATOR_KIND` (10_state.md R40). -/
inductive IndicatorKind where
  | pixel
  | led
  | none
  deriving DecidableEq, Repr, Inhabited

/-- The parameter `DECODE` (10_state.md R40, 43_duplex_loop.md R196) as plain data: the spec's default, or one of any
number of other lossy decodings, in which what stands for failing bytes is a free value (`Config.otherLossy`, log entry 8). -/
inductive DecodeChoice where
  | utf8Replacement
  | other (k : Nat)
  deriving DecidableEq, Repr, Inhabited

/-- The parameter `RENDER_ACTIVITY` (00_scope.md R6, 43_duplex_loop.md R193, OPEN) as plain data: one of any number of layouts,
numbered; what each puts about the text and the counter is a free value (`Config.activityBefore` and the next three, log
entry 9). -/
structure ActivityLayout where
  number : Nat
  deriving DecidableEq, Repr, Inhabited

namespace Config

/-! ## Constants of the source (00_scope.md R5) -/

/-- `BAUD`. -/
def baud : Nat := 9600
/-- `T_SETTLE_MS`. -/
def tSettleMs : Nat := 50
/-- `T_FRAME_MS`. -/
def tFrameMs : Nat := 50
/-- `T_POLL_MS_DEFAULT`. -/
def tPollMsDefault : Nat := 2000
/-- `BASE_FREQ_MHZ`. -/
def baseFreqMHz : Int := 862
/-- `FREQ_MIN_MHZ`, inclusive. -/
def freqMinMHz : Int := 915
/-- `FREQ_MAX_MHZ`, inclusive. -/
def freqMaxMHz : Int := 928
/-- `QV_HEADER`. -/
def qvHeader : Byte := 0xC3#8
/-- `RC_HEADER`. -/
def rcHeader : Byte := 0xC1#8
/-- `WC_OPCODE`. -/
def wcOpcode : Byte := 0xC2#8

/-! ## Free values: what the spec leaves to a draw or to the platform. No body, so no proof can see one.
Each is applied to the plain counter `State.draws` or to what the spec lets it depend on. -/

/-- Whether the `n`-th drawn pin write fails (60_exceptions.md R215: "a draw of the step and not a function of the
state"). Log entry 5. -/
opaque pinWriteFails : Nat → Bool

/-- Whether `VALIDATE`'s `n`-th draw reports the frequency when both checks fail (41_codec.md R130, decision D8).
Log entry 6. -/
opaque reportsFrequency : Nat → Bool

/-- What the `k`-th lossy decoding other than the default keeps in place of the `n`-th run of bytes that fail decoding, in an
input: a character and what follows it, so never nothing ("preserved as a best-effort lossy string rather than discarded",
43_duplex_loop.md R196). Log entry 8. -/
opaque otherLossy (k : Nat) (bs : List Byte) (n : Nat) : Char × Text

/-- `RENDER_ACTIVITY` (43_duplex_loop.md R193, OPEN): what the activity line of the `k`-th layout holds before its text and counter.
Log entry 9. -/
opaque activityBefore (k : Nat) : Text → Nat → Text
/-- `RENDER_ACTIVITY`: what stands between the text and the counter. Log entry 9. -/
opaque activityBetween (k : Nat) : Text → Nat → Text
/-- `RENDER_ACTIVITY`: what follows on the same line. Log entry 9. -/
opaque activityAfter (k : Nat) : Text → Nat → Text
/-- `RENDER_ACTIVITY`: whether the counter stands before the text. Log entry 9. -/
opaque activityCounterFirst (k : Nat) : Text → Nat → Bool

/-- How the sink shows a `LogError` event: no rule gives it (60_exceptions.md R214 names the event alone). Log entry 9. -/
opaque renderError : Nat → Text

end Config

/-- The reset-time parameters of 00_scope.md R6 with the types of 10_state.md R40, "fixed at reset and constant for the
whole run". `gpioOutputs` is the platform predicate `IsGpioOutput` as the list of the pins it holds of (log entry 7);
`INDICATOR_KIND` is derived (Machine/Board.lean). -/
structure Params where
  /-- `PIN_ASSIGNMENT`, or none ("no matching board profile", 10_state.md R41). -/
  pinAssignment : Option PinAssignment
  /-- `IsGpioOutput`. -/
  gpioOutputs : List PinId
  /-- `ADDRESS`. -/
  address : BitVec 16
  /-- `FREQ_MHZ`. -/
  freqMHz : Int
  /-- `AIR_RATE_BPS`. -/
  airRateBps : Int
  /-- `FEC_EN`. -/
  fecEn : Bool
  /-- `POWER_DBM`. -/
  powerDbm : PowerLevel
  /-- `DRIVE_MODE`. -/
  driveMode : DriveMode
  /-- `FIXED_MODE`. -/
  fixedMode : Bool
  /-- `T_POLL_MS`. -/
  tPollMs : Nat := Config.tPollMsDefault
  /-- `PIXEL_RGB`. -/
  pixelRgb : BitVec 24
  /-- `PIN_WRITE_CAN_FAIL`. -/
  pinWriteCanFail : Bool := false
  /-- `WAKEUP_CODE`. -/
  wakeupCode : BitVec 3 := 0#3
  /-- `DECODE`. -/
  decode : DecodeChoice := .utf8Replacement
  /-- `RENDER_ACTIVITY`. -/
  renderActivity : ActivityLayout
  deriving DecidableEq, Repr, Inhabited

/-- DESIGN CHOICE (log entry 2, unsafe): the parameter set of the reset state, P-920 of 95_test_vectors.md with a pin
record, a pin list, an amber and an activity layout of the model's own; the spec leaves them OPEN. `State.resetWith` takes any other set. -/
def Params.p920 : Params where
  pinAssignment := some
    { txPin := 0, rxPin := 1, pinA := 2, pinB := 3, auxPin := none, indPin := some 4, indIsPixel := false, uartIndex := 0 }
  gpioOutputs := [0, 2, 3, 4]
  address := 0xFFFF#16
  freqMHz := 920
  airRateBps := 300
  fecEn := true
  powerDbm := .dbm30
  driveMode := .pushPull
  fixedMode := false
  pixelRgb := 0xFFBF00#24
  renderActivity := ⟨0⟩

end Sys2Proof
end

