-- ==== Sys2Proof/Syntax.lean ====
section
/-! DEFINITION. The rows of spec/opcode_table.json, one constructor a row, in the table's order: the encodings the block
emits (command frames, mode-select patterns, link messages) and the 36 micro-operations of its hardwired program
(42_sequencer.md R150). A micro-operation's row is its pc, so rows that share a mnemonic are told apart by that number. -/

namespace Sys2Proof

/-- One row of the opcode table. -/
inductive Instr where
  /-- `FRAME_QV`: the Version-query frame (30_encoding.md R71). -/
  | frameQv
  /-- `FRAME_RC`: the Read-config frame (R72). -/
  | frameRc
  /-- `FRAME_WC`: the Write-config frame and its fields A, R, C, X, D, W, F, P (R73, R85). -/
  | frameWc (address : BitVec 16) (rate : AirRate) (channel : Byte) (fixed : Bool) (drive : DriveMode)
      (wakeup : BitVec 3) (fec : Bool) (power : PowerLevel)
  /-- `PINS_NORMAL`: the pattern (0,0) (R80). -/
  | pinsNormal
  /-- `PINS_CONFIGURATION`: the pattern (1,1) (R80). -/
  | pinsConfiguration
  /-- `PINS_RESERVED`: the patterns (0,1) and (1,0) (R81). -/
  | pinsReserved (a b : Level)
  /-- `MSG_HEARTBEAT`: `radio n` (R82). -/
  | msgHeartbeat (n : Nat)
  /-- `MSG_REPLY`: `twoway n` (R82). -/
  | msgReply (n : Nat)
  /-- pc 0, `VALIDATE` (41_codec.md R130). -/
  | validate
  /-- pc 1, `SETPIN A, 1` (40_mode_controller.md R102). -/
  | setPinA1
  /-- pc 2, `SETPIN B, 1` (R102). -/
  | setPinB1
  /-- pc 3, `SETIND ON` (R105). -/
  | setIndOn3
  /-- pc 4, `DELAY T_SETTLE` (R106). -/
  | delaySettle4
  /-- pc 5, `SEND QV` (41_codec.md R132). -/
  | sendQv
  /-- pc 6, `DELAY T_FRAME` (42_sequencer.md R152). -/
  | delayFrame6
  /-- pc 7, `READAVAIL RBUF` (R153). -/
  | readAvailRbuf7
  /-- pc 8, `LOGHEX QUERY_VERSION` (R156). -/
  | logHexQueryVersion
  /-- pc 9, `SEND RC` (41_codec.md R134). -/
  | sendRc9
  /-- pc 10, `DELAY T_FRAME` (R152). -/
  | delayFrame10
  /-- pc 11, `READAVAIL RBUF` (R153). -/
  | readAvailRbuf11
  /-- pc 12, `LOGHEX READ_OLD` (R156). -/
  | logHexReadOld
  /-- pc 13, `SEND WC` (41_codec.md R133). -/
  | sendWc
  /-- pc 14, `DELAY T_FRAME` (R152). -/
  | delayFrame14
  /-- pc 15, `READAVAIL RBUF` (R153). -/
  | readAvailRbuf15
  /-- pc 16, `LOGHEX WRITE_NEW` (R156). -/
  | logHexWriteNew
  /-- pc 17, `SEND RC` (41_codec.md R134). -/
  | sendRc17
  /-- pc 18, `DELAY T_FRAME` (R152). -/
  | delayFrame18
  /-- pc 19, `READAVAIL RBUF` (R153). -/
  | readAvailRbuf19
  /-- pc 20, `LOGHEX READ_BACK` (R156). -/
  | logHexReadBack
  /-- pc 21, `SETPIN A, 0` (R102). -/
  | setPinA0
  /-- pc 22, `SETPIN B, 0` (R102). -/
  | setPinB0
  /-- pc 23, `SETIND OFF` (R105). -/
  | setIndOff23
  /-- pc 24, `DELAY T_SETTLE` (R106). -/
  | delaySettle24
  /-- pc 25, `LOOPINIT` (43_duplex_loop.md R181). -/
  | loopInit
  /-- pc 26, `TICK` (R183). -/
  | tick
  /-- pc 27, `POLL T_POLL` (R184). -/
  | pollTPoll
  /-- pc 28, `BRANCH HIT, 29, 33` (R186). -/
  | branchHit
  /-- pc 29, `READAVAIL INBOUND` (R187). -/
  | readAvailInbound
  /-- pc 30, `SETIND ON` (R188). -/
  | setIndOn30
  /-- pc 31, `SEND REPLY` (R189). -/
  | sendReply
  /-- pc 32, `LOGACT` (R190). -/
  | logAct
  /-- pc 33, `SETIND OFF` (R191). -/
  | setIndOff33
  /-- pc 34, `SEND HEARTBEAT` (R192). -/
  | sendHeartbeat
  /-- pc 35, `LOGDOT` (R194). -/
  | logDot
  deriving DecidableEq, Repr, Inhabited

end Sys2Proof
end

