-- ==== Sys2Proof/WellFormed.lean ====
section
/-! DEFINITION. Which rows, with which operands, the spec's encodings admit: a Write-config frame's channel byte is 53 to 66
(30_encoding.md R75), and a reserved pin pattern is one of the two mixed ones (R81). Every other operand is a closed
type, and every value of it is legal (R74, R78, R82). -/

namespace Sys2Proof

/-- `CHAN ∈ [53, 66]` (30_encoding.md R75). The decoder and `FRAME_WC` do not ask it: DESIGN CHOICE, log entry 22. -/
def channelInRange (c : Byte) : Bool := decide (53 ≤ c.toNat) && decide (c.toNat ≤ 66)

/-- The well-formed rows. -/
def Instr.wellFormed : Instr → Bool
  | .frameWc _ _ channel _ _ _ _ _ => channelInRange channel
  | .pinsReserved a b => decide (a ≠ b)
  | .frameQv | .frameRc | .pinsNormal | .pinsConfiguration | .msgHeartbeat _ | .msgReply _ | .validate | .setPinA1
  | .setPinB1 | .setIndOn3 | .delaySettle4 | .sendQv | .delayFrame6 | .readAvailRbuf7 | .logHexQueryVersion
  | .sendRc9 | .delayFrame10 | .readAvailRbuf11 | .logHexReadOld | .sendWc | .delayFrame14 | .readAvailRbuf15
  | .logHexWriteNew | .sendRc17 | .delayFrame18 | .readAvailRbuf19 | .logHexReadBack | .setPinA0 | .setPinB0
  | .setIndOff23 | .delaySettle24 | .loopInit | .tick | .pollTPoll | .branchHit | .readAvailInbound | .setIndOn30
  | .sendReply | .logAct | .setIndOff33 | .sendHeartbeat | .logDot => true

end Sys2Proof
end

