-- ==== Sys2Proof/Decode.lean ====
section
/-! DEFINITION. The encodings of spec/30_encoding.md, bit by bit: the field codes, the command frames and link messages as
byte sequences, the pin patterns, and the pc of each micro-operation; the decoder that reads an encoding back (total, rejecting
by name), and the encoder. The block itself decodes nothing (R84): the decoder is the reader of R79. -/

namespace Sys2Proof

/-! ## Fields -/

/-- `hi8(v) = v[15:8]` (00_scope.md R8). -/
def hi8 (v : BitVec 16) : Byte := v.extractLsb' 8 8

/-- `lo8(v) = v[7:0]` (00_scope.md R8). -/
def lo8 (v : BitVec 16) : Byte := v.extractLsb' 0 8

/-- A Boolean read as a one-bit field (41_codec.md R126: "with Booleans read as 0 or 1"). -/
def bit (b : Bool) : BitVec 1 := BitVec.ofBool b

/-! ## Field codes -/

/-- `AIR_RATE_CODE` (30_encoding.md R76, 41_codec.md R124). -/
def AirRate.code : AirRate → BitVec 3
  | .bps300 => 0b000#3
  | .bps1200 => 0b001#3
  | .bps2400 => 0b010#3
  | .bps4800 => 0b011#3
  | .bps9600 => 0b100#3
  | .bps19200 => 0b101#3

/-- The air rate of a code; "Codes 0b110 and 0b111 are never produced" (R76). -/
def AirRate.ofCode (c : BitVec 3) : Option AirRate :=
  match c.toNat with
  | 0 => some .bps300
  | 1 => some .bps1200
  | 2 => some .bps2400
  | 3 => some .bps4800
  | 4 => some .bps9600
  | 5 => some .bps19200
  | _ => none

/-- `POWER_CODE` (30_encoding.md R78, 41_codec.md R126). -/
def PowerLevel.code : PowerLevel → BitVec 2
  | .dbm30 => 0b00#2
  | .dbm27 => 0b01#2
  | .dbm24 => 0b10#2
  | .dbm21 => 0b11#2

/-- The power level of a code (R78). -/
def PowerLevel.ofCode (c : BitVec 2) : PowerLevel :=
  match c.toNat with
  | 0 => .dbm30
  | 1 => .dbm27
  | 2 => .dbm24
  | _ => .dbm21

/-- "1 if `DRIVE_MODE = PushPull`, 0 if `OpenDrain`" (R78). -/
def DriveMode.isPushPull : DriveMode → Bool
  | .pushPull => true
  | .openDrain => false

/-- The drive mode of bit 6 of the option byte (R78). -/
def DriveMode.ofBit (b : Bool) : DriveMode := if b then .pushPull else .openDrain

/-- The upper five bits of SPED: parity 0b00 and baud 0b011 (R77). -/
def spedUpper : BitVec 5 := 0b00011#5

/-- `SPED = {0b00011, R[2:0]}` (R77, 41_codec.md R125). -/
def spedByte (r : AirRate) : Byte := spedUpper ++ r.code

/-- `OPTION = {X, D, W[2:0], F, P[1:0]}` (R78, 41_codec.md R126). -/
def optionByte (fixed : Bool) (drive : DriveMode) (wakeup : BitVec 3) (fec : Bool) (power : PowerLevel) : Byte :=
  bit fixed ++ bit drive.isPushPull ++ wakeup ++ bit fec ++ power.code

/-! ## Command frames (R71 to R73) -/

/-- `encode_query_version()` (41_codec.md R128). -/
def queryVersionFrame : List Byte := [Config.qvHeader, Config.qvHeader, Config.qvHeader]

/-- `encode_read_config()` (41_codec.md R129). -/
def readConfigFrame : List Byte := [Config.rcHeader, Config.rcHeader, Config.rcHeader]

/-- `encode_write_config(cfg)` (41_codec.md R131). -/
def writeConfigFrame (c : ConfigRegisters) : List Byte := [Config.wcOpcode, c.addh, c.addl, c.sped, c.chan, c.option]

/-- The register image of a Write-config frame's fields (R85). -/
def configRegistersOf (address : BitVec 16) (rate : AirRate) (channel : Byte) (fixed : Bool) (drive : DriveMode)
    (wakeup : BitVec 3) (fec : Bool) (power : PowerLevel) : ConfigRegisters where
  addh := hi8 address
  addl := lo8 address
  sped := spedByte rate
  chan := channel
  option := optionByte fixed drive wakeup fec power

/-! ## Link messages (R82) -/

/-- `ascii(t)`: one byte per character (00_scope.md R8). -/
def ascii (t : Text) : List Byte := t.map fun c => BitVec.ofNat 8 c.toNat

/-- "each decimal digit d sent as `0x30 + d`" (R82). -/
def digitByte (d : Nat) : Byte := BitVec.ofNat 8 (0x30 + d)

/-- The decimal digits of `n`, most significant first; `fuel` more than the number of digits is enough. -/
def decDigits : Nat → Nat → List Nat
  | 0, n => [n % 10]
  | fuel + 1, n => if n < 10 then [n] else decDigits fuel (n / 10) ++ [n % 10]

/-- `ascii(dec(n))`: "no sign and no leading zeros" (00_scope.md R8). -/
def decBytes (n : Nat) : List Byte := (decDigits n n).map digitByte

/-- `HEARTBEAT_PREFIX`, with its trailing space (00_scope.md R5). -/
def heartbeatHead : List Byte := ascii ['r', 'a', 'd', 'i', 'o', ' ']

/-- `REPLY_PREFIX`, with its trailing space (00_scope.md R5). -/
def replyHead : List Byte := ascii ['t', 'w', 'o', 'w', 'a', 'y', ' ']

/-- The heartbeat `radio n` (R82). -/
def heartbeatBytes (n : Nat) : List Byte := heartbeatHead ++ decBytes n

/-- The reply `twoway n` (R82). -/
def replyBytes (n : Nat) : List Byte := replyHead ++ decBytes n

/-! ## Mode-select patterns and micro-operations -/

/-- The row of a pair of levels on lines A and B (R80, R81). -/
def pinPattern : Level → Level → Instr
  | .zero, .zero => .pinsNormal
  | .one, .one => .pinsConfiguration
  | .zero, .one => .pinsReserved .zero .one
  | .one, .zero => .pinsReserved .one .zero

/-- The hardwired micro-program of 42_sequencer.md R150: the micro-operation at each pc, none outside 0..35. -/
def microOpAt : Nat → Option Instr
  | 0 => some .validate
  | 1 => some .setPinA1
  | 2 => some .setPinB1
  | 3 => some .setIndOn3
  | 4 => some .delaySettle4
  | 5 => some .sendQv
  | 6 => some .delayFrame6
  | 7 => some .readAvailRbuf7
  | 8 => some .logHexQueryVersion
  | 9 => some .sendRc9
  | 10 => some .delayFrame10
  | 11 => some .readAvailRbuf11
  | 12 => some .logHexReadOld
  | 13 => some .sendWc
  | 14 => some .delayFrame14
  | 15 => some .readAvailRbuf15
  | 16 => some .logHexWriteNew
  | 17 => some .sendRc17
  | 18 => some .delayFrame18
  | 19 => some .readAvailRbuf19
  | 20 => some .logHexReadBack
  | 21 => some .setPinA0
  | 22 => some .setPinB0
  | 23 => some .setIndOff23
  | 24 => some .delaySettle24
  | 25 => some .loopInit
  | 26 => some .tick
  | 27 => some .pollTPoll
  | 28 => some .branchHit
  | 29 => some .readAvailInbound
  | 30 => some .setIndOn30
  | 31 => some .sendReply
  | 32 => some .logAct
  | 33 => some .setIndOff33
  | 34 => some .sendHeartbeat
  | 35 => some .logDot
  | _ => none

/-! ## Decoding -/

/-- Why a byte sequence, a pair of levels or a pc is no row of the table. -/
inductive DecodeError where
  /-- No byte at all. -/
  | empty
  /-- The first byte begins no frame and no message (R79, R84: "nothing else"). -/
  | unknownHeader
  /-- The sequence ends inside a frame. -/
  | truncated
  /-- A three-byte frame whose bytes are not identical (R71, R72). -/
  | unequalHeader
  /-- SPED's upper five bits are not 0b00011 (R77). -/
  | notEightN1At9600
  /-- SPED's air-rate code is 0b110 or 0b111 (R76). -/
  | reservedAirRate
  /-- A message without a digit after its words (R82). -/
  | noDigits
  /-- A message whose number has a leading zero (00_scope.md R8). -/
  | leadingZero
  /-- Bytes are left after one encoding. -/
  | trailingBytes
  /-- A pc outside 0..35 (42_sequencer.md R150). -/
  | noMicroOp
  deriving DecidableEq, Repr

/-- An encoding of the table: bytes on the UART, levels on the two lines, or the pc that selects a micro-operation
(30_encoding.md R90: "`encoding`: `pc=<n>`"). -/
inductive Encoding where
  | bytes (bs : List Byte)
  | pins (a b : Level)
  | micro (pc : Nat)
  deriving DecidableEq, Repr

/-- A frame of three identical bytes, its first byte read (R71, R72). -/
def decodeTriple (h : Byte) (i : Instr) : List Byte → Except DecodeError (Instr × List Byte)
  | b1 :: b2 :: rest => if b1 = h ∧ b2 = h then .ok (i, rest) else .error .unequalHeader
  | _ => .error .truncated

/-- A Write-config frame, its opcode byte read (R73, R85). DESIGN CHOICE (log entry 22, unsafe): any channel byte is read, as
the pattern of R73 and the table's mask have eight free bits there; the block itself sends 53 to 66 alone (R75), so a
frame with another one is read as a row that is not well-formed. -/
def decodeWriteConfig : List Byte → Except DecodeError (Instr × List Byte)
  | addh :: addl :: sped :: chan :: opt :: rest =>
    if sped.extractLsb' 3 5 = spedUpper then
      match AirRate.ofCode (sped.extractLsb' 0 3) with
      | some rate =>
        .ok (.frameWc (addh ++ addl) rate chan (opt.getLsbD 7) (DriveMode.ofBit (opt.getLsbD 6))
          (opt.extractLsb' 3 3) (opt.getLsbD 2) (PowerLevel.ofCode (opt.extractLsb' 0 2)), rest)
      | none => .error .reservedAirRate
    else .error .notEightN1At9600
  | _ => .error .truncated

/-- What follows `word` in a byte sequence that begins with it. -/
def stripWord : List Byte → List Byte → Option (List Byte)
  | [], bs => some bs
  | w :: ws, b :: bs => if w = b then stripWord ws bs else none
  | _ :: _, [] => none

/-- The value of an ASCII digit. -/
def digitValue (b : Byte) : Option Nat :=
  if 0x30 ≤ b.toNat ∧ b.toNat ≤ 0x39 then some (b.toNat - 0x30) else none

/-- The run of digits at the head of a byte sequence, and what follows it. -/
def takeDigits : List Byte → List Nat × List Byte
  | [] => ([], [])
  | b :: bs =>
    match digitValue b with
    | some d => (d :: (takeDigits bs).1, (takeDigits bs).2)
    | none => ([], b :: bs)

/-- The number of a digit sequence, most significant first. -/
def digitsValue (ds : List Nat) : Nat := ds.foldl (fun n d => 10 * n + d) 0

/-- The number of a message, its words read (R82). -/
def decodeNumber (mk : Nat → Instr) (bs : List Byte) : Except DecodeError (Instr × List Byte) :=
  match takeDigits bs with
  | ([], _) => .error .noDigits
  | (0 :: _ :: _, _) => .error .leadingZero
  | (ds, rest) => .ok (mk (digitsValue ds), rest)

/-- A link message (R82). -/
def decodeMessage (bs : List Byte) : Except DecodeError (Instr × List Byte) :=
  match stripWord heartbeatHead bs with
  | some rest => decodeNumber .msgHeartbeat rest
  | none =>
    match stripWord replyHead bs with
    | some rest => decodeNumber .msgReply rest
    | none => .error .unknownHeader

/-- The encoding at the head of the transmit stream and the bytes after it: a frame's length is told by its first byte
(R79), a message ends with its digits (R82). -/
def decodeBytes : List Byte → Except DecodeError (Instr × List Byte)
  | [] => .error .empty
  | b :: bs =>
    if b = Config.qvHeader then decodeTriple Config.qvHeader .frameQv bs
    else if b = Config.rcHeader then decodeTriple Config.rcHeader .frameRc bs
    else if b = Config.wcOpcode then decodeWriteConfig bs
    else decodeMessage (b :: bs)

/-- The row of one whole encoding. -/
def decode : Encoding → Except DecodeError Instr
  | .bytes bs =>
    match decodeBytes bs with
    | .ok (i, []) => .ok i
    | .ok (_, _ :: _) => .error .trailingBytes
    | .error e => .error e
  | .pins a b => .ok (pinPattern a b)
  | .micro pc =>
    match microOpAt pc with
    | some i => .ok i
    | none => .error .noMicroOp

/-! ## Encoding -/

/-- The encoding of a row, from the tables of 30_encoding.md and 42_sequencer.md R150. -/
def encode : Instr → Encoding
  | .frameQv => .bytes queryVersionFrame
  | .frameRc => .bytes readConfigFrame
  | .frameWc address rate channel fixed drive wakeup fec power =>
    .bytes (writeConfigFrame (configRegistersOf address rate channel fixed drive wakeup fec power))
  | .pinsNormal => .pins .zero .zero
  | .pinsConfiguration => .pins .one .one
  | .pinsReserved a b => .pins a b
  | .msgHeartbeat n => .bytes (heartbeatBytes n)
  | .msgReply n => .bytes (replyBytes n)
  | .validate => .micro 0
  | .setPinA1 => .micro 1
  | .setPinB1 => .micro 2
  | .setIndOn3 => .micro 3
  | .delaySettle4 => .micro 4
  | .sendQv => .micro 5
  | .delayFrame6 => .micro 6
  | .readAvailRbuf7 => .micro 7
  | .logHexQueryVersion => .micro 8
  | .sendRc9 => .micro 9
  | .delayFrame10 => .micro 10
  | .readAvailRbuf11 => .micro 11
  | .logHexReadOld => .micro 12
  | .sendWc => .micro 13
  | .delayFrame14 => .micro 14
  | .readAvailRbuf15 => .micro 15
  | .logHexWriteNew => .micro 16
  | .sendRc17 => .micro 17
  | .delayFrame18 => .micro 18
  | .readAvailRbuf19 => .micro 19
  | .logHexReadBack => .micro 20
  | .setPinA0 => .micro 21
  | .setPinB0 => .micro 22
  | .setIndOff23 => .micro 23
  | .delaySettle24 => .micro 24
  | .loopInit => .micro 25
  | .tick => .micro 26
  | .pollTPoll => .micro 27
  | .branchHit => .micro 28
  | .readAvailInbound => .micro 29
  | .setIndOn30 => .micro 30
  | .sendReply => .micro 31
  | .logAct => .micro 32
  | .setIndOff33 => .micro 33
  | .sendHeartbeat => .micro 34
  | .logDot => .micro 35

/-- Whether a row is a micro-operation: "it is selected by its pc value alone" (R90). -/
def Instr.isMicroOp (i : Instr) : Bool :=
  match encode i with
  | .bytes _ => false
  | .pins _ _ => false
  | .micro _ => true

/-! ## Notation (30_encoding.md R90, R91) -/

/-- `ENTER(m)` as its micro-operations; a reserved mode has none, and a model that is asked for one "must refuse it"
(40_mode_controller.md R104). -/
def enterMacro : OperatingMode → Option (List Instr)
  | .configuration => some [.setPinA1, .setPinB1, .setIndOn3, .delaySettle4]
  | .normal => some [.setPinA0, .setPinB0, .setIndOff23, .delaySettle24]
  | .powerSaving => none
  | .sleep => none

/-- The four frame exchanges of 42_sequencer.md R154, as their micro-operations. -/
def exchangeMacros : List (List Instr) :=
  [[.sendQv, .delayFrame6, .readAvailRbuf7, .logHexQueryVersion],
   [.sendRc9, .delayFrame10, .readAvailRbuf11, .logHexReadOld],
   [.sendWc, .delayFrame14, .readAvailRbuf15, .logHexWriteNew],
   [.sendRc17, .delayFrame18, .readAvailRbuf19, .logHexReadBack]]

/-- Every row's mnemonic as spec/opcode_table.json spells it. -/
def Instr.mnemonic : Instr → String
  | .frameQv => "FRAME_QV"
  | .frameRc => "FRAME_RC"
  | .frameWc _ _ _ _ _ _ _ _ => "FRAME_WC"
  | .pinsNormal => "PINS_NORMAL"
  | .pinsConfiguration => "PINS_CONFIGURATION"
  | .pinsReserved _ _ => "PINS_RESERVED"
  | .msgHeartbeat _ => "MSG_HEARTBEAT"
  | .msgReply _ => "MSG_REPLY"
  | .validate => "VALIDATE"
  | .setPinA1 => "SETPIN_A__1"
  | .setPinB1 => "SETPIN_B__1"
  | .setIndOn3 => "SETIND_ON"
  | .delaySettle4 => "DELAY_T_SETTLE"
  | .sendQv => "SEND_QV"
  | .delayFrame6 => "DELAY_T_FRAME"
  | .readAvailRbuf7 => "READAVAIL_RBUF"
  | .logHexQueryVersion => "LOGHEX_QUERY_VERSION"
  | .sendRc9 => "SEND_RC"
  | .delayFrame10 => "DELAY_T_FRAME"
  | .readAvailRbuf11 => "READAVAIL_RBUF"
  | .logHexReadOld => "LOGHEX_READ_OLD"
  | .sendWc => "SEND_WC"
  | .delayFrame14 => "DELAY_T_FRAME"
  | .readAvailRbuf15 => "READAVAIL_RBUF"
  | .logHexWriteNew => "LOGHEX_WRITE_NEW"
  | .sendRc17 => "SEND_RC"
  | .delayFrame18 => "DELAY_T_FRAME"
  | .readAvailRbuf19 => "READAVAIL_RBUF"
  | .logHexReadBack => "LOGHEX_READ_BACK"
  | .setPinA0 => "SETPIN_A__0"
  | .setPinB0 => "SETPIN_B__0"
  | .setIndOff23 => "SETIND_OFF"
  | .delaySettle24 => "DELAY_T_SETTLE"
  | .loopInit => "LOOPINIT"
  | .tick => "TICK"
  | .pollTPoll => "POLL_T_POLL"
  | .branchHit => "BRANCH_HIT__29__33"
  | .readAvailInbound => "READAVAIL_INBOUND"
  | .setIndOn30 => "SETIND_ON"
  | .sendReply => "SEND_REPLY"
  | .logAct => "LOGACT"
  | .setIndOff33 => "SETIND_OFF"
  | .sendHeartbeat => "SEND_HEARTBEAT"
  | .logDot => "LOGDOT"

/-! ## The host's numbering of the table (log entry 14) -/

/-- The `k` low bytes of `w`, the most significant first: "first byte in the most significant position" (R73). -/
def bytesOfWord : Nat → Nat → List Byte
  | 0, _ => []
  | k + 1, w => bytesOfWord k (w / 256) ++ [BitVec.ofNat 8 w]

/-- A bit of a number as a level. -/
def levelOfBit (b : Bool) : Level := if b then .one else .zero

/-- The encoding that the table's number `w` of `nbits` bits stands for: a pc where the table gives no bits (or the pc's
6), a pair of levels (A the high bit) for the two-bit rows, bytes otherwise. A message of which the table gives only the
words has operand bits 0: the number 0, which `dec` writes as the one digit `0`. -/
def encodingOfTableWord (nbits w : Nat) : Option Encoding :=
  if nbits = 0 ∨ nbits = 6 then some (.micro w)
  else if nbits = 2 ∨ nbits = 8 then
    if w < 4 then some (.pins (levelOfBit (w.testBit 1)) (levelOfBit (w.testBit 0))) else none
  else
    match decodeBytes (bytesOfWord (nbits / 8) w) with
    | .error .noDigits => some (.bytes (bytesOfWord (nbits / 8) w ++ decBytes 0))
    | _ => some (.bytes (bytesOfWord (nbits / 8) w))

/-- The instruction the decoder reads from a table word, none where it refuses. -/
def decodeTableWord (nbits w : Nat) : Option Instr :=
  match encodingOfTableWord nbits w with
  | some e =>
    match decode e with
    | .ok i => some i
    | .error _ => none
  | none => none

end Sys2Proof
end

