-- ==== Sys2Proof/Machine/Board.lean ====
section
/-! DEFINITION. What is resolved from the board's pin record at reset: whether it may be used (spec/10_state.md R41,
70_reset_and_hazards.md R241), and the indicator variant (R40, R224, R242). -/

namespace Sys2Proof

/-- `IsGpioOutput` (10_state.md R40). -/
def Params.isGpioOutput (p : Params) (pin : PinId) : Bool := decide (pin ∈ p.gpioOutputs)

/-- `pin_a ≠ pin_b ∧ IsGpioOutput(pin_a) ∧ IsGpioOutput(pin_b)` (R41). -/
def Params.assignmentValid (p : Params) (pa : PinAssignment) : Bool :=
  decide (pa.pinA ≠ pa.pinB) && p.isGpioOutput pa.pinA && p.isGpioOutput pa.pinB

/-- The pin-assignment check of reset: "The check passes when a PinAssignment is supplied and satisfies 10_state.md rule
R41" (70_reset_and_hazards.md R241). -/
def Params.pinsOk (p : Params) : Bool :=
  match p.pinAssignment with
  | some pa => p.assignmentValid pa
  | none => false

/-- `INDICATOR_KIND`: "Pixel if ind_pin present and ind_is_pixel, else Led if ind_pin present, else None" (R40). -/
def Params.indicatorKind (p : Params) : IndicatorKind :=
  match p.pinAssignment with
  | some pa =>
    match pa.indPin with
    | some _ => if pa.indIsPixel then .pixel else .led
    | none => .none
  | none => .none

/-- The UART the block uses: its index and its two lines (R41: "`uart_index` only to name the UART it uses,
`tx_pin`/`rx_pin` only as the UART's lines"). -/
def Params.uart (p : Params) : Option (Nat × PinId × PinId) :=
  p.pinAssignment.map fun pa => (pa.uartIndex, pa.txPin, pa.rxPin)

end Sys2Proof
end

