-- ==== Sys2Proof/Machine/State.lean ====
section
/-! DEFINITION. The state of the machine as plain data: the block's elements (spec/10_state.md R21 to R35), the environment's
(R36 to R39), the reset-time parameters (R40), and two fields of the model's own: the counter of draws (log entry 4) and
the agenda, which says which agent moves next (log entry 1). The block has no addressed memory (20_memory.md R50), so none
stands here. -/

namespace Sys2Proof.Machine

/-- `s.run` (10_state.md R22). -/
inductive RunState where
  | run
  | error
  | stopped
  deriving DecidableEq, Repr, Inhabited

/-- The error codes of 60_exceptions.md R211. -/
inductive ErrCode where
  | none
  | outOfRangeFrequency
  | unknownAirRate
  | pinAssignment
  | pinWriteFault
  deriving DecidableEq, Repr, Inhabited

/-- The tags of `LOGHEX` (42_sequencer.md R156). -/
inductive ExchangeTag where
  | queryVersion
  | readOld
  | writeNew
  | readBack
  deriving DecidableEq, Repr, Inhabited

/-- The log events (20_memory.md R59). -/
inductive LogEvent where
  /-- `LogHex(tag, bytes)` (42_sequencer.md R156). -/
  | logHex (tag : ExchangeTag) (bs : List Byte)
  /-- `LogNewline` (43_duplex_loop.md R193). -/
  | logNewline
  /-- `LogActivity(text, n)` (R193). -/
  | logActivity (text : Text) (n : Nat)
  /-- `LogDot` (R193). -/
  | logDot
  /-- `LogError(c)` (60_exceptions.md R214). -/
  | logError (c : ErrCode)
  deriving DecidableEq, Repr, Inhabited

/-- The event kinds of the trace (10_state.md R38). -/
inductive Event where
  | pin (p : Line) (v : Level)
  | ind (v : OnOff)
  | tx (bs : List Byte)
  | log (e : LogEvent)
  deriving DecidableEq, Repr, Inhabited

/-- What the environment may do beside letting time pass. -/
inductive EnvEvent where
  /-- `ModuleSend(bs)` with `bs` the non-empty sequence `b :: bs` (20_memory.md R52). -/
  | moduleSend (b : Byte) (bs : List Byte)
  /-- The host sets the cancel input (10_state.md R39); log entry 12. -/
  | setCancel (v : Bool)
  /-- The host ends the process and starts it again with these parameters (70_reset_and_hazards.md R240, 60_exceptions.md
  R228). -/
  | hostReset (p : Params)
  deriving DecidableEq, Repr, Inhabited

/-- One entry of the agenda: which agent moves next (log entry 1). -/
inductive Turn where
  /-- The block is given its turn; a block that has no step lets it pass. -/
  | block
  /-- The time agent steps (20_memory.md R69). -/
  | time
  /-- `@t e`: an environment event at clock value `t` (30_encoding.md R92). -/
  | env (t : Nat) (e : EnvEvent)
  /-- The model's own probe (log entry 3): the frame, pattern or message row that the table's number `w` of `nbits` bits
  encodes is run in the place of the micro-operation at the pc. The spec has no such move. -/
  | issue (nbits w : Nat)
  deriving DecidableEq, Repr, Inhabited

/-- The machine's state. -/
structure State where
  /-- The micro-program counter (R21). -/
  pc : Nat
  /-- The run state (R22). -/
  run : RunState
  /-- The output latch of mode-select pin A; none is an unknown level (R24). -/
  pinA : Option Level
  /-- The output latch of mode-select pin B (R24). -/
  pinB : Option Level
  /-- The indicator output; none is unknown (R27). -/
  ind : Option OnOff
  /-- The configuration staging register file (R28). -/
  cfg : Option ConfigRegisters
  /-- The response buffer (R29). -/
  rbuf : List Byte
  /-- The message counter, unbounded (R30). -/
  cnt : Nat
  /-- A newline is owed before the next activity line (R31). -/
  nlOwed : Bool
  /-- The result of the most recent `POLL` (R32). -/
  hit : Bool
  /-- The bytes of the loop's `READAVAIL` (R33). -/
  inbound : List Byte
  /-- The wait timer (R34). -/
  deadline : Option Nat
  /-- The error code register (R35). -/
  err : ErrCode
  /-- The environment's clock, in ms (R36). -/
  now : Nat
  /-- The UART's receive buffer (R37). -/
  rx : List Byte
  /-- The output history, oldest first (R38). -/
  trace : List (Event × Nat)
  /-- The cancel input (R39). -/
  cancel : Bool
  /-- The reset-time parameters (R40). -/
  params : Params
  /-- The model's own: how many draws have been taken (log entry 4). -/
  draws : Nat
  /-- The model's own: which agents move next (log entry 1). -/
  agenda : List Turn
  deriving DecidableEq, Repr, Inhabited

/-- Why a step stops with a fault. -/
inductive Fault where
  /-- The block's turn comes at a pc outside 0..35, where the micro-program has no entry ("no pc outside 0..35 is
  reachable", 42_sequencer.md R150). Raised by the block's step; safe: no run from reset gets there. -/
  | noMicroOp
  /-- `SEND WC` finds no configuration: the frame "is defined only on a `cfg` that `VALIDATE` built" (41_codec.md R131, R133).
  Raised by `SEND WC`; safe: no run from reset gets there. -/
  | cfgNotBuilt
  deriving DecidableEq, Repr

/-- Why a step is refused. -/
inductive Refusal where
  /-- An instruction that has no meaning in the model yet. Raised by exec's refused arms, of which there are none; safe. -/
  | notModelled (mnemonic : String)
  /-- A reserved mode was asked for: the model "must refuse it (no meaning)" (40_mode_controller.md R104). Raised by
  `PINS_RESERVED`; safe. -/
  | reservedMode
  /-- A UART access inside a settle window: it "has no meaning from the source and must" be refused
  (70_reset_and_hazards.md R243). Raised by the five frame and message rows, at the pcs of a transition and less than
  `T_SETTLE_MS` after any pin write; safe. -/
  | settleWindow
  /-- Configuration mode asked for while the loop runs: the model "must refuse it" (42_sequencer.md R159). Raised by
  `PINS_CONFIGURATION`; safe. -/
  | reentry
  /-- A micro-operation asked for by a probe: it "has no binary encoding: it is selected by its pc value alone"
  (30_encoding.md R90), and out of its pc it could enter Configuration mode again (42_sequencer.md R159) or use the UART in
  a settle window (R243). Raised by the probe turn; safe. -/
  | selectedByPc
  /-- A probe word that encodes no row: the block's encodings "are closed" (30_encoding.md R84). Raised by the probe turn; safe. -/
  | notAnEncoding
  deriving DecidableEq, Repr

/-- Every element at its reset value of 10_state.md R42, the pin-assignment check passed. -/
def State.initial (p : Params) : State where
  pc := 0
  run := .run
  pinA := none
  pinB := none
  ind := none
  cfg := none
  rbuf := []
  cnt := 0
  nlOwed := false
  hit := false
  inbound := []
  deadline := none
  err := .none
  now := 0
  rx := []
  trace := []
  cancel := false
  params := p
  draws := 0
  agenda := []

/-- Reset with the parameters `p` (70_reset_and_hazards.md R240, R241): where the pin-assignment check fails, the block
comes out of reset with the fatal entry of PIN_ASSIGNMENT taken at `now = 0` (60_exceptions.md R213). -/
def State.resetWith (p : Params) : State :=
  if p.pinsOk then State.initial p
  else { State.initial p with
    run := .error
    err := .pinAssignment
    trace := [(.log (.logError .pinAssignment), 0)] }

/-- The machine right after reset, with the parameter set of log entry 2. -/
def State.reset : State := State.resetWith Params.p920

end Sys2Proof.Machine
end

