-- ==== Sys2Proof/Machine/Ops.lean ====
section
/-! DEFINITION. The block's access primitives (spec/20_memory.md R53 to R59), the fatal entry (60_exceptions.md R212, R214),
the draws, and the environment agents' moves (20_memory.md R52, R69, 10_state.md R39), each said once. -/

namespace Sys2Proof.Machine

/-! ## The pc and the output history -/

/-- `pc <- target` (00_scope.md R9). -/
def State.goto (s : State) (target : Nat) : State := { s with pc := target }

/-- `pc <- pc + 1` (10_state.md R21). -/
def State.advance (s : State) : State := s.goto (s.pc + 1)

/-- `trace <- trace ++ [(e, now)]` (10_state.md R38). -/
def State.emit (s : State) (e : Event) : State := { s with trace := s.trace ++ [(e, s.now)] }

/-- `Log(e)` (20_memory.md R59). -/
def State.logEvent (s : State) (e : LogEvent) : State := s.emit (.log e)

/-! ## The UART -/

/-- `UartWrite(bs)`: the whole sequence in one event (R53). -/
def State.uartWrite (s : State) (bs : List Byte) : State := s.emit (.tx bs)

/-- What `UartReadAvailable()` leaves: an empty receive buffer; what it returns is `s.rx` (R54). -/
def State.clearRx (s : State) : State := { s with rx := [] }

/-- `s.rbuf <- UartReadAvailable()` (42_sequencer.md R153). -/
def State.readToRbuf (s : State) : State := { s.clearRx with rbuf := s.rx }

/-- `s.inbound <- UartReadAvailable()` (43_duplex_loop.md R187). -/
def State.readToInbound (s : State) : State := { s.clearRx with inbound := s.rx }

/-! ## The lines and the indicator -/

/-- The latch of line `p` (10_state.md R24). -/
def State.latch (s : State) : Line → Option Level
  | .a => s.pinA
  | .b => s.pinB

/-- `s.pin_p <- some v`. -/
def State.setLatch (s : State) (p : Line) (v : Level) : State :=
  match p with
  | .a => { s with pinA := some v }
  | .b => { s with pinB := some v }

/-- `PinWrite(p, v)` where it does not fail (20_memory.md R57). -/
def State.pinWrite (s : State) (p : Line) (v : Level) : State := (s.setLatch p v).emit (.pin p v)

/-- `IndicatorSet(v)` (R58). -/
def State.indicatorSet (s : State) (v : OnOff) : State := ({ s with ind := some v } : State).emit (.ind v)

/-! ## Waits -/

/-- The arming step of a wait of `d` ms (R55, R56). -/
def State.arm (s : State) (d : Nat) : State := { s with deadline := some (s.now + d) }

/-- `s.deadline <- none`. -/
def State.disarm (s : State) : State := { s with deadline := none }

/-- `Delay(d)` and the micro-operation's pc update (R56): arm; complete once the deadline is reached; between the two "the
block has no step", and the state stays as it is. -/
def State.delay (s : State) (d : Nat) : State :=
  match s.deadline with
  | none => s.arm d
  | some e => if e ≤ s.now then s.disarm.advance else s

/-- Whether the wait that is armed, or not yet armed, lets the block step: always before arming, from the deadline on
after it, and on data where the wait is a poll (R55, R56). -/
def State.waitReady (s : State) (onData : Bool) : Bool :=
  match s.deadline with
  | none => true
  | some e => decide (e ≤ s.now) || (onData && !s.rx.isEmpty)

/-! ## Fatal errors -/

/-- `raise Fatal(c)`: the one entry every error takes (60_exceptions.md R214). The pc and every other element keep their
values. -/
def State.raiseFatal (s : State) (c : ErrCode) : State := { s.logEvent (.logError c) with err := c, run := .error }

/-- The kinds of ConfigurationError (00_scope.md R9). -/
inductive ConfigurationError where
  | outOfRangeFrequency
  | unknownAirRate
  deriving DecidableEq, Repr

/-- `raise ConfigurationError(k)` (60_exceptions.md R212). -/
def State.raiseConfigurationError (s : State) : ConfigurationError → State
  | .outOfRangeFrequency => s.raiseFatal .outOfRangeFrequency
  | .unknownAirRate => s.raiseFatal .unknownAirRate

/-- The number of an error code (60_exceptions.md R211). -/
def ErrCode.number : ErrCode → Nat
  | .none => 0
  | .outOfRangeFrequency => 1
  | .unknownAirRate => 2
  | .pinAssignment => 3
  | .pinWriteFault => 4

/-! ## Draws (log entry 4) -/

/-- One draw taken. -/
def State.drawn (s : State) : State := { s with draws := s.draws + 1 }

/-- One `PinWrite(p, v)` of a step, followed by `k` where it does not fail. When `PIN_WRITE_CAN_FAIL` is true the failure is
a draw, and then "neither the latch nor the trace records the write" (20_memory.md R57, 60_exceptions.md R215). -/
def State.pinWriteThen (s : State) (p : Line) (v : Level) (k : State → State) : State :=
  if s.params.pinWriteCanFail then
    if Config.pinWriteFails s.draws then s.drawn.raiseFatal .pinWriteFault
    else k (s.drawn.pinWrite p v)
  else k (s.pinWrite p v)

/-- `SETPIN p, v` (40_mode_controller.md R102). -/
def State.setPin (s : State) (p : Line) (v : Level) : State := s.pinWriteThen p v State.advance

/-- The settle delay after a transition that no `DELAY` of the micro-program follows: the next `T_SETTLE_MS` turns are the time
agent's, so that nothing else moves in the window ("driving both pins then waiting a fixed settle delay",
70_reset_and_hazards.md R243). DESIGN CHOICE, log entry 20. -/
def State.letSettle (s : State) : State := { s with agenda := List.replicate Config.tSettleMs .time ++ s.agenda }

/-- Both lines driven to a pattern, A first (decision D6), and the settle delay; nothing after a write that fails. -/
def State.drivePins (s : State) (a b : Level) : State :=
  s.pinWriteThen .a a fun s1 => s1.pinWriteThen .b b State.letSettle

/-! ## The environment -/

/-- The time agent's step: `now <- now + 1` (20_memory.md R69). -/
def State.timeStep (s : State) : State := { s with now := s.now + 1 }

/-- An environment event: bytes from the module (20_memory.md R52), the cancel input (10_state.md R39), or a reset, which
leaves nothing of the run (70_reset_and_hazards.md R240); the draw counter and the agenda are the model's own and go on. -/
def State.environment (s : State) : EnvEvent → State
  | .moduleSend b bs => { s with rx := s.rx ++ b :: bs }
  | .setCancel v => { s with cancel := v }
  | .hostReset p => { State.resetWith p with draws := s.draws, agenda := s.agenda }

/-! ## Where the block stands -/

/-- The settle window, by the pc: {1, 2, 3, 4, 21, 22, 23, 24} (10_state.md R26, 70_reset_and_hazards.md R243). -/
def State.inSettleWindow (s : State) : Bool := decide (1 ≤ s.pc ∧ s.pc ≤ 4) || decide (21 ≤ s.pc ∧ s.pc ≤ 24)

/-- An event of the pin kind. -/
def Event.isPin : Event → Bool
  | .pin _ _ => true
  | .ind _ => false
  | .tx _ => false
  | .log _ => false

/-- Whether a line was written less than `T_SETTLE_MS` ago: "For at least `T_SETTLE_MS` after the second pin write of a
transition, nothing may be sent to the module" (70_reset_and_hazards.md R243). -/
def State.pinJustWritten (s : State) : Bool :=
  s.trace.any fun x => x.1.isPin && decide (s.now < x.2 + Config.tSettleMs)

/-- Whether the configuration phase is over: pc 25 is the source's `Done` (42_sequencer.md R158, R159). -/
def State.configurationDone (s : State) : Bool := decide (25 ≤ s.pc)

end Sys2Proof.Machine
end

