-- ==== Sys2Proof/Machine/Operands.lean ====
section
/-! DEFINITION. The operands the micro-operations assemble from the reset-time parameters: the checks and field functions of
the codec (spec/41_codec.md R120 to R127), the register image, and the text of the inbound bytes (43_duplex_loop.md R196). -/

namespace Sys2Proof.Machine

/-- `freq_ok(f) = (915 ≤ f ∧ f ≤ 928)` (R121). -/
def freqOk (f : Int) : Bool := decide (Config.freqMinMHz ≤ f) && decide (f ≤ Config.freqMaxMHz)

/-- The air rate of a number of bps, none where it "has no code mapping" (R122). -/
def airRateOf (r : Int) : Option AirRate :=
  if r = 300 then some .bps300
  else if r = 1200 then some .bps1200
  else if r = 2400 then some .bps2400
  else if r = 4800 then some .bps4800
  else if r = 9600 then some .bps9600
  else if r = 19200 then some .bps19200
  else none

/-- `rate_ok(r)` (R122). -/
def rateOk (r : Int) : Bool := (airRateOf r).isSome

/-- `channel_byte(f) = f − 862`, defined where `freq_ok(f)` (R123). -/
def channelByte (f : Int) : Byte := BitVec.ofNat 8 (f - Config.baseFreqMHz).toNat

/-- The register image that `VALIDATE` builds from the parameters and the air rate it found (R130, 30_encoding.md R85). -/
def registersFor (p : Params) (rate : AirRate) : ConfigRegisters :=
  configRegistersOf p.address rate (channelByte p.freqMHz) p.fixedMode p.driveMode p.wakeupCode p.fecEn p.powerDbm

/-- ConfigRegisters of the parameters, none where a check fails (R121, R122, R130). -/
def validConfig (p : Params) : Option ConfigRegisters :=
  if freqOk p.freqMHz then (airRateOf p.airRateBps).map (registersFor p) else none

/-! ## DECODE (43_duplex_loop.md R196, decision D21): UTF-8, in which bytes that fail decoding are replaced and not discarded.
Which bytes make one failing sequence is PRESUMED (log entry 8): the longest start of a valid one, as Unicode recommends. -/

/-- U+FFFD. -/
def replacementChar : Char := Char.ofNat 0xFFFD

/-- A character begun: its value so far, how many continuation bytes are still needed, and the range of the next one. -/
structure Utf8Pending where
  value : Nat
  need : Nat
  lo : Nat
  hi : Nat
  deriving DecidableEq, Repr

/-- A byte where a character begins: what it completes (a character, or none for a failing sequence), and the character it
begins. -/
def utf8Start (b : Nat) : List (Option Char) × Option Utf8Pending :=
  if b ≤ 0x7F then ([some (Char.ofNat b)], none)
  else if b < 0xC2 then ([none], none)
  else if b ≤ 0xDF then ([], some ⟨b - 0xC0, 1, 0x80, 0xBF⟩)
  else if b ≤ 0xEF then
    ([], some ⟨b - 0xE0, 2, if b = 0xE0 then 0xA0 else 0x80, if b = 0xED then 0x9F else 0xBF⟩)
  else if b ≤ 0xF4 then
    ([], some ⟨b - 0xF0, 3, if b = 0xF0 then 0x90 else 0x80, if b = 0xF4 then 0x8F else 0xBF⟩)
  else ([none], none)

/-- A byte after the bytes read so far: what it completes, and the character under way after it. -/
def utf8Next (pending : Option Utf8Pending) (b : Nat) : List (Option Char) × Option Utf8Pending :=
  match pending with
  | none => utf8Start b
  | some u =>
    if u.lo ≤ b ∧ b ≤ u.hi then
      if u.need ≤ 1 then ([some (Char.ofNat (u.value * 64 + (b - 0x80)))], none)
      else ([], some ⟨u.value * 64 + (b - 0x80), u.need - 1, 0x80, 0xBF⟩)
    else (none :: (utf8Start b).1, (utf8Start b).2)

/-- The characters and the failing sequences (none) of the bytes, in order. -/
def utf8Pieces : Option Utf8Pending → List Byte → List (Option Char)
  | none, [] => []
  | some _, [] => [none]
  | pending, b :: bs => (utf8Next pending b.toNat).1 ++ utf8Pieces (utf8Next pending b.toNat).2 bs

/-- Each failing sequence replaced by U+FFFD. -/
def replaceFailures (ps : List (Option Char)) : Text := ps.map fun c => c.getD replacementChar

/-- Each run of failing sequences replaced by the text of its number; `inRun` says that the run under way has its text, and `n`
how many runs have been begun. -/
def replaceRuns (text : Nat → Text) (inRun : Bool) (n : Nat) : List (Option Char) → Text
  | [] => []
  | some c :: ps => c :: replaceRuns text false n ps
  | none :: ps => if inRun then replaceRuns text true n ps else text n ++ replaceRuns text true (n + 1) ps

/-- `DECODE(bs)`, the parameter (R196). In every choice valid UTF-8 is decoded, and bytes that fail decoding leave something:
U+FFFD for each failing sequence in the default, and in any other a free text of at least one character for each run of them,
so that how such a decoding delimits the sequences of a run stays open too (log entry 8). -/
def decodeText : DecodeChoice → List Byte → Text
  | .utf8Replacement, bs => replaceFailures (utf8Pieces none bs)
  | .other k, bs =>
    replaceRuns (fun n => (Config.otherLossy k bs n).1 :: (Config.otherLossy k bs n).2) false 0 (utf8Pieces none bs)

end Sys2Proof.Machine
end

