-- ==== Sys2Proof/Machine/Codec.lean ====
section
/-! DEFINITION. The codec's micro-operations: `VALIDATE` and the `SEND` of the three frames (spec/41_codec.md R130 to R134). -/

namespace Sys2Proof.Machine

/-- `VALIDATE`, pc 0 (R130). When both checks fail the reported kind is a draw (decision D8, log entry 6). -/
def execValidate (s : State) : Host.Outcome State Fault Refusal :=
  match freqOk s.params.freqMHz, airRateOf s.params.airRateBps with
  | true, some rate => .next (({ s with cfg := some (registersFor s.params rate) } : State).goto 1)
  | true, none => .next (s.raiseConfigurationError .unknownAirRate)
  | false, some _ => .next (s.raiseConfigurationError .outOfRangeFrequency)
  | false, none =>
    .next (s.drawn.raiseConfigurationError
      (if Config.reportsFrequency s.draws then .outOfRangeFrequency else .unknownAirRate))

/-- `SEND QV`, pc 5 (R132). -/
def execSendQv (s : State) : Host.Outcome State Fault Refusal := .next ((s.uartWrite queryVersionFrame).goto 6)

/-- `SEND RC` (R134). -/
def sendReadConfig (s : State) : State := (s.uartWrite readConfigFrame).advance

/-- `SEND RC`, pc 9 (R134). -/
def execSendRc9 (s : State) : Host.Outcome State Fault Refusal := .next (sendReadConfig s)

/-- `SEND RC`, pc 17 (R134). -/
def execSendRc17 (s : State) : Host.Outcome State Fault Refusal := .next (sendReadConfig s)

/-- `SEND WC`, pc 13 (R133). Without a configuration, which no run brings there, the frame is not defined (R131). -/
def execSendWc (s : State) : Host.Outcome State Fault Refusal :=
  match s.cfg with
  | some c => .next ((s.uartWrite (writeConfigFrame c)).goto 14)
  | none => .fault .cfgNotBuilt

end Sys2Proof.Machine
end

