-- ==== Sys2Proof/Machine/Flags.lean ====
section
/-! DEFINITION. The block's flags (spec/10_state.md R43): `s.hit`, `s.nl_owed` and `s.run`. There are no condition codes; no
micro-operation writes a flag but the ones its rule lists. -/

namespace Sys2Proof.Machine

/-- `s.hit <- v` (10_state.md R32). -/
def State.setHit (s : State) (v : Bool) : State := { s with hit := v }

/-- `s.nl_owed <- v` (R31). -/
def State.setNlOwed (s : State) (v : Bool) : State := { s with nlOwed := v }

/-- `s.run <- STOPPED` (43_duplex_loop.md R185). -/
def State.stop (s : State) : State := { s with run := .stopped }

/-- `s.cnt <- n` (R30). -/
def State.setCnt (s : State) (n : Nat) : State := { s with cnt := n }

/-- The completing step of `UartPoll`: the result into `s.hit` (20_memory.md R55, 43_duplex_loop.md R184). -/
def State.finishPoll (s : State) (result : Bool) : State := s.disarm.setHit result

/-- `LogNewline` where a newline is owed, and then none is (43_duplex_loop.md R190). -/
def State.payNewline (s : State) : State := if s.nlOwed then (s.logEvent .logNewline).setNlOwed false else s

end Sys2Proof.Machine
end

