-- ==== Sys2Proof/Machine/DuplexLoop.lean ====
section
/-! DEFINITION. The Duplex Message Loop's micro-operations (spec/43_duplex_loop.md R181 to R194). -/

namespace Sys2Proof.Machine

/-- `LOOPINIT`, pc 25 (R181). -/
def execLoopInit (s : State) : Host.Outcome State Fault Refusal := .next (((s.setCnt 0).setNlOwed false).goto 26)

/-- `TICK`, pc 26: the cancel input is sampled here alone, and otherwise the counter is incremented (R183, R185). -/
def execTick (s : State) : Host.Outcome State Fault Refusal :=
  if s.cancel then .next s.stop else .next ((s.setCnt (s.cnt + 1)).goto 27)

/-- `POLL T_POLL`, pc 27 (R184, 20_memory.md R55): arm; complete true on data, or false from the deadline on without; between
the two "the block has no step". -/
def execPollTPoll (s : State) : Host.Outcome State Fault Refusal :=
  match s.deadline with
  | none => .next (s.arm s.params.tPollMs)
  | some e =>
    if s.rx ≠ [] then .next ((s.finishPoll true).goto 28)
    else if e ≤ s.now then .next ((s.finishPoll false).goto 28)
    else .next s

/-- `BRANCH HIT, 29, 33`, pc 28 (R186). -/
def execBranchHit (s : State) : Host.Outcome State Fault Refusal := .next (s.goto (if s.hit then 29 else 33))

/-- `READAVAIL INBOUND`, pc 29 (R187). -/
def execReadAvailInbound (s : State) : Host.Outcome State Fault Refusal := .next (s.readToInbound.goto 30)

/-- `SETIND ON`, pc 30: "active" (R188). -/
def execSetIndOn30 (s : State) : Host.Outcome State Fault Refusal := .next ((s.indicatorSet .on).goto 31)

/-- `SEND REPLY`, pc 31 (R189). -/
def execSendReply (s : State) : Host.Outcome State Fault Refusal := .next ((s.uartWrite (replyBytes s.cnt)).goto 32)

/-- `LOGACT`, pc 32: the newline owed, then the activity line, then back to pc 26 (R190). -/
def execLogAct (s : State) : Host.Outcome State Fault Refusal :=
  .next ((s.payNewline.logEvent (.logActivity (decodeText s.params.decode s.inbound) s.cnt)).goto 26)

/-- `SETIND OFF`, pc 33: "idle" (R191). -/
def execSetIndOff33 (s : State) : Host.Outcome State Fault Refusal := .next ((s.indicatorSet .off).goto 34)

/-- `SEND HEARTBEAT`, pc 34 (R192). -/
def execSendHeartbeat (s : State) : Host.Outcome State Fault Refusal :=
  .next ((s.uartWrite (heartbeatBytes s.cnt)).goto 35)

/-- `LOGDOT`, pc 35: the progress marker, a newline owed, back to pc 26 (R194). -/
def execLogDot (s : State) : Host.Outcome State Fault Refusal :=
  .next (((s.logEvent .logDot).setNlOwed true).goto 26)

end Sys2Proof.Machine
end

