-- ==== Sys2Proof/Machine/LineEncodings.lean ====
section
/-! DEFINITION. The rows of the table that are encodings: each one's meaning is to be emitted on its channel, in one step
that leaves the pc where it is (log entry 3). A micro-operation emits the frame or message and then moves the pc. -/

namespace Sys2Proof.Machine

/-- A frame or message emitted, but not inside a settle window, neither by the pc nor by the pin writes of the trace
(70_reset_and_hazards.md R243, log entry 19). DESIGN CHOICE (log entry 23, unsafe): nothing else is asked, so a frame row is
sent outside Configuration mode too, and a message row outside Normal mode and with a number other than the counter;
30_encoding.md R70, R79 and R82 speak of the block's own sends alone. -/
def emitOnUart (bs : List Byte) (s : State) : Host.Outcome State Fault Refusal :=
  if s.inSettleWindow || s.pinJustWritten then .refused .settleWindow else .next (s.uartWrite bs)

/-- `FRAME_QV` (30_encoding.md R71, 41_codec.md R128). -/
def execFrameQv (s : State) : Host.Outcome State Fault Refusal := emitOnUart queryVersionFrame s

/-- `FRAME_RC` (R72, R129). -/
def execFrameRc (s : State) : Host.Outcome State Fault Refusal := emitOnUart readConfigFrame s

/-- `FRAME_WC` with the fields given (R73, R85, R131). DESIGN CHOICE (log entry 22, unsafe): a channel byte outside 53..66,
which no `VALIDATE` builds and for which R131 defines no frame, is sent as it is given. DESIGN CHOICE (log entry 23, unsafe):
the fields need not be those of `s.cfg` or of the parameters, and `s.cfg` may be none; R131 and R85 speak of an image that
this run's `VALIDATE` built and neither give nor refuse another. -/
def execFrameWc (address : BitVec 16) (rate : AirRate) (channel : Byte) (fixed : Bool) (drive : DriveMode)
    (wakeup : BitVec 3) (fec : Bool) (power : PowerLevel) (s : State) : Host.Outcome State Fault Refusal :=
  emitOnUart (writeConfigFrame (configRegistersOf address rate channel fixed drive wakeup fec power)) s

/-- `PINS_NORMAL`: both lines to (0,0) (R80), then the settle delay (70_reset_and_hazards.md R243, log entry 20). DESIGN CHOICE
(log entry 24, unsafe): the row is driven at every pc, not only at those of `ENTER(Normal)`, with a wait armed or inside a
settle window too, so that the block's own later frames may go out in Normal mode or at a reserved pattern. -/
def execPinsNormal (s : State) : Host.Outcome State Fault Refusal := .next (s.drivePins .zero .zero)

/-- `PINS_CONFIGURATION`: both lines to (1,1) (R80), then the settle delay, but not while the loop runs
(42_sequencer.md R159). DESIGN CHOICE (log entry 24, unsafe): below pc 25 the row is driven at every pc, with a wait armed or
inside a settle window too, so that the block's own later messages may go out in Configuration mode or at a reserved
pattern. -/
def execPinsConfiguration (s : State) : Host.Outcome State Fault Refusal :=
  if s.configurationDone then .refused .reentry else .next (s.drivePins .one .one)

/-- `PINS_RESERVED`: a reserved mode has no meaning and is refused (40_mode_controller.md R104). -/
def execPinsReserved (_a _b : Level) (_s : State) : Host.Outcome State Fault Refusal := .refused .reservedMode

/-- `MSG_HEARTBEAT` (R82). -/
def execMsgHeartbeat (n : Nat) (s : State) : Host.Outcome State Fault Refusal := emitOnUart (heartbeatBytes n) s

/-- `MSG_REPLY` (R82). -/
def execMsgReply (n : Nat) (s : State) : Host.Outcome State Fault Refusal := emitOnUart (replyBytes n) s

end Sys2Proof.Machine
end

