-- ==== Sys2Proof/Machine/ModeController.lean ====
section
/-! DEFINITION. The Mode Controller's micro-operations (spec/40_mode_controller.md R102, R105, R106). -/

namespace Sys2Proof.Machine

/-- `SETPIN A, 1`, pc 1 (R102). -/
def execSetPinA1 (s : State) : Host.Outcome State Fault Refusal := .next (s.setPin .a .one)

/-- `SETPIN B, 1`, pc 2 (R102). -/
def execSetPinB1 (s : State) : Host.Outcome State Fault Refusal := .next (s.setPin .b .one)

/-- `SETPIN A, 0`, pc 21 (R102). -/
def execSetPinA0 (s : State) : Host.Outcome State Fault Refusal := .next (s.setPin .a .zero)

/-- `SETPIN B, 0`, pc 22 (R102). -/
def execSetPinB0 (s : State) : Host.Outcome State Fault Refusal := .next (s.setPin .b .zero)

/-- `SETIND ON`, pc 3 (R105). -/
def execSetIndOn3 (s : State) : Host.Outcome State Fault Refusal := .next (s.indicatorSet .on).advance

/-- `SETIND OFF`, pc 23 (R105). -/
def execSetIndOff23 (s : State) : Host.Outcome State Fault Refusal := .next (s.indicatorSet .off).advance

/-- `DELAY T_SETTLE`, pc 4 (R106). -/
def execDelaySettle4 (s : State) : Host.Outcome State Fault Refusal := .next (s.delay Config.tSettleMs)

/-- `DELAY T_SETTLE`, pc 24 (R106). -/
def execDelaySettle24 (s : State) : Host.Outcome State Fault Refusal := .next (s.delay Config.tSettleMs)

end Sys2Proof.Machine
end

