-- ==== Sys2Proof/Machine/Sequencer.lean ====
section
/-! DEFINITION. The frame exchanges' micro-operations: the inter-frame gate, the single response read and its log
(spec/42_sequencer.md R152, R153, R156). -/

namespace Sys2Proof.Machine

/-- `READAVAIL RBUF` (R153). -/
def readResponse (s : State) : State := s.readToRbuf.advance

/-- `LOGHEX tag` (R156): the response is logged, empty or not. -/
def logResponse (tag : ExchangeTag) (s : State) : State := (s.logEvent (.logHex tag s.rbuf)).advance

/-- `DELAY T_FRAME`, pc 6 (R152). -/
def execDelayFrame6 (s : State) : Host.Outcome State Fault Refusal := .next (s.delay Config.tFrameMs)

/-- `DELAY T_FRAME`, pc 10 (R152). -/
def execDelayFrame10 (s : State) : Host.Outcome State Fault Refusal := .next (s.delay Config.tFrameMs)

/-- `DELAY T_FRAME`, pc 14 (R152). -/
def execDelayFrame14 (s : State) : Host.Outcome State Fault Refusal := .next (s.delay Config.tFrameMs)

/-- `DELAY T_FRAME`, pc 18 (R152). -/
def execDelayFrame18 (s : State) : Host.Outcome State Fault Refusal := .next (s.delay Config.tFrameMs)

/-- `READAVAIL RBUF`, pc 7 (R153). -/
def execReadAvailRbuf7 (s : State) : Host.Outcome State Fault Refusal := .next (readResponse s)

/-- `READAVAIL RBUF`, pc 11 (R153). -/
def execReadAvailRbuf11 (s : State) : Host.Outcome State Fault Refusal := .next (readResponse s)

/-- `READAVAIL RBUF`, pc 15 (R153). -/
def execReadAvailRbuf15 (s : State) : Host.Outcome State Fault Refusal := .next (readResponse s)

/-- `READAVAIL RBUF`, pc 19 (R153). -/
def execReadAvailRbuf19 (s : State) : Host.Outcome State Fault Refusal := .next (readResponse s)

/-- `LOGHEX QUERY_VERSION`, pc 8 (R156). -/
def execLogHexQueryVersion (s : State) : Host.Outcome State Fault Refusal := .next (logResponse .queryVersion s)

/-- `LOGHEX READ_OLD`, pc 12 (R156). -/
def execLogHexReadOld (s : State) : Host.Outcome State Fault Refusal := .next (logResponse .readOld s)

/-- `LOGHEX WRITE_NEW`, pc 16 (R156). -/
def execLogHexWriteNew (s : State) : Host.Outcome State Fault Refusal := .next (logResponse .writeNew s)

/-- `LOGHEX READ_BACK`, pc 20 (R156). -/
def execLogHexReadBack (s : State) : Host.Outcome State Fault Refusal := .next (logResponse .readBack s)

end Sys2Proof.Machine
end

