-- ==== Sys2Proof/Machine/Dispatch.lean ====
section
/-! DEFINITION. Which meaning each row of the opcode table has: one arm a constructor. -/

namespace Sys2Proof.Machine

def exec (i : Instr) (s : State) : Host.Outcome State Fault Refusal :=
  match i with
  -- The encodings (30_encoding.md).
  | .frameQv => Sys2Proof.Machine.execFrameQv s
  | .frameRc => Sys2Proof.Machine.execFrameRc s
  | .frameWc address rate channel fixed drive wakeup fec power => Sys2Proof.Machine.execFrameWc address rate channel fixed drive wakeup fec power s
  | .pinsNormal => Sys2Proof.Machine.execPinsNormal s
  | .pinsConfiguration => Sys2Proof.Machine.execPinsConfiguration s
  | .pinsReserved a b => Sys2Proof.Machine.execPinsReserved a b s
  | .msgHeartbeat n => Sys2Proof.Machine.execMsgHeartbeat n s
  | .msgReply n => Sys2Proof.Machine.execMsgReply n s
  -- The codec, the mode controller and the sequencer (pc 0 to 24).
  | .validate => Sys2Proof.Machine.execValidate s
  | .setPinA1 => Sys2Proof.Machine.execSetPinA1 s
  | .setPinB1 => Sys2Proof.Machine.execSetPinB1 s
  | .setIndOn3 => Sys2Proof.Machine.execSetIndOn3 s
  | .delaySettle4 => Sys2Proof.Machine.execDelaySettle4 s
  | .sendQv => Sys2Proof.Machine.execSendQv s
  | .delayFrame6 => Sys2Proof.Machine.execDelayFrame6 s
  | .readAvailRbuf7 => Sys2Proof.Machine.execReadAvailRbuf7 s
  | .logHexQueryVersion => Sys2Proof.Machine.execLogHexQueryVersion s
  | .sendRc9 => Sys2Proof.Machine.execSendRc9 s
  | .delayFrame10 => Sys2Proof.Machine.execDelayFrame10 s
  | .readAvailRbuf11 => Sys2Proof.Machine.execReadAvailRbuf11 s
  | .logHexReadOld => Sys2Proof.Machine.execLogHexReadOld s
  | .sendWc => Sys2Proof.Machine.execSendWc s
  | .delayFrame14 => Sys2Proof.Machine.execDelayFrame14 s
  | .readAvailRbuf15 => Sys2Proof.Machine.execReadAvailRbuf15 s
  | .logHexWriteNew => Sys2Proof.Machine.execLogHexWriteNew s
  | .sendRc17 => Sys2Proof.Machine.execSendRc17 s
  | .delayFrame18 => Sys2Proof.Machine.execDelayFrame18 s
  | .readAvailRbuf19 => Sys2Proof.Machine.execReadAvailRbuf19 s
  | .logHexReadBack => Sys2Proof.Machine.execLogHexReadBack s
  | .setPinA0 => Sys2Proof.Machine.execSetPinA0 s
  | .setPinB0 => Sys2Proof.Machine.execSetPinB0 s
  | .setIndOff23 => Sys2Proof.Machine.execSetIndOff23 s
  | .delaySettle24 => Sys2Proof.Machine.execDelaySettle24 s
  -- The duplex message loop (pc 25 to 35).
  | .loopInit => Sys2Proof.Machine.execLoopInit s
  | .tick => Sys2Proof.Machine.execTick s
  | .pollTPoll => Sys2Proof.Machine.execPollTPoll s
  | .branchHit => Sys2Proof.Machine.execBranchHit s
  | .readAvailInbound => Sys2Proof.Machine.execReadAvailInbound s
  | .setIndOn30 => Sys2Proof.Machine.execSetIndOn30 s
  | .sendReply => Sys2Proof.Machine.execSendReply s
  | .logAct => Sys2Proof.Machine.execLogAct s
  | .setIndOff33 => Sys2Proof.Machine.execSetIndOff33 s
  | .sendHeartbeat => Sys2Proof.Machine.execSendHeartbeat s
  | .logDot => Sys2Proof.Machine.execLogDot s

end Sys2Proof.Machine
end

