-- ==== Sys2Proof/Machine/Agents.lean ====
section
/-! DEFINITION. The step relation: the block's step (spec/42_sequencer.md R151), the environment agents' (20_memory.md R52,
R69), and how the agenda says which of them moves (log entries 1 and 11). -/

namespace Sys2Proof.Machine

/-- Whether the micro-operation `i` has a step in `s`: all but an armed wait whose completion is not enabled
(20_memory.md R55, R56, 42_sequencer.md R151). -/
def microOpReady (i : Instr) (s : State) : Bool :=
  match i with
  | .delaySettle4 | .delayFrame6 | .delayFrame10 | .delayFrame14 | .delayFrame18 | .delaySettle24 => s.waitReady false
  | .pollTPoll => s.waitReady true
  | .frameQv | .frameRc | .frameWc _ _ _ _ _ _ _ _ | .pinsNormal | .pinsConfiguration | .pinsReserved _ _
  | .msgHeartbeat _ | .msgReply _ | .validate | .setPinA1 | .setPinB1 | .setIndOn3 | .sendQv | .readAvailRbuf7
  | .logHexQueryVersion | .sendRc9 | .readAvailRbuf11 | .logHexReadOld | .sendWc | .readAvailRbuf15 | .logHexWriteNew
  | .sendRc17 | .readAvailRbuf19 | .logHexReadBack | .setPinA0 | .setPinB0 | .setIndOff23 | .loopInit | .tick
  | .branchHit | .readAvailInbound | .setIndOn30 | .sendReply | .logAct | .setIndOff33 | .sendHeartbeat | .logDot => true

/-- Whether the block has a step: "The block has a step only when `s.run = RUN`" (R151), and then where the micro-operation
at its pc has one. -/
def State.blockReady (s : State) : Bool :=
  match s.run with
  | .run =>
    match microOpAt s.pc with
    | some i => microOpReady i s
    | none => true
  | .error => false
  | .stopped => false

/-- "Its step is the rule of the micro-operation at `s.pc`" (R151). -/
def blockStep (s : State) : Host.Outcome State Fault Refusal :=
  match microOpAt s.pc with
  | some i => exec i s
  | none => .fault .noMicroOp

/-- The block's turn: its step where it has one. -/
def blockTurn (s : State) : Host.Outcome State Fault Refusal := if s.blockReady then blockStep s else .next s

/-- The schedule of 95_test_vectors.md, taken where the agenda names no agent: "every enabled block step is taken before the
time agent steps" (30_encoding.md R92). Where `T_POLL_MS = 0` and nothing is received it lets no time pass, and is then no
complete execution (20_memory.md R69, Machine/Execution.lean, log entry 11). -/
def earliestTurn (s : State) : Host.Outcome State Fault Refusal := if s.blockReady then blockStep s else .next s.timeStep

/-- The model's probe (log entry 3): the row a table word encodes, run by a block that runs. A micro-operation's row is
refused: its pc alone selects it (30_encoding.md R90), so that no probe leads back from the loop (42_sequencer.md R159)
or uses the UART at a pc of a transition (70_reset_and_hazards.md R243). -/
def issueTurn (nbits w : Nat) (s : State) : Host.Outcome State Fault Refusal :=
  match s.run with
  | .run =>
    match decodeTableWord nbits w with
    | some i => if i.isMicroOp then .refused .selectedByPc else exec i s
    | none => .refused .notAnEncoding
  | .error => .next s
  | .stopped => .next s

/-- One step of the machine: the agent the agenda names moves. An environment event waits for its clock value, and the
earliest schedule goes on until then. -/
def takeTurn (s : State) : Host.Outcome State Fault Refusal :=
  match s.agenda with
  | [] => earliestTurn s
  | .block :: rest => blockTurn { s with agenda := rest }
  | .time :: rest => .next ({ s with agenda := rest } : State).timeStep
  | .env t e :: rest =>
    if t ≤ s.now then .next (({ s with agenda := rest } : State).environment e) else earliestTurn s
  | .issue nbits w :: rest => issueTurn nbits w { s with agenda := rest }

/-- The instruction a table word encodes, placed where the next step takes it (log entry 3): a micro-operation is selected
by its pc, with no wait armed; any other row is put at the head of the agenda. -/
def placeWord (s : State) (nbits w : Nat) : State :=
  if nbits = 0 ∨ nbits = 6 then { s with pc := w, deadline := none, agenda := .block :: s.agenda }
  else { s with agenda := .issue nbits w :: s.agenda }

end Sys2Proof.Machine
end

