-- ==== Sys2Proof/Machine/Execution.lean ====
section
/-! DEFINITION. Infinite executions: which sequences of steps are one run of the machine, and which of them the model calls
complete (spec/20_memory.md R69, decision D3). An agenda is finite, so an infinite interleaving is a schedule outside the state
that names one turn for each step (log entry 11). -/

namespace Sys2Proof.Machine

/-- An infinite sequence of states, and of turns: turn `k` leads from state `k` to state `k + 1`. -/
structure Execution where
  states : Nat → State
  turns : Nat → Turn

/-- The state that takes `t` as its next turn and has no other ahead. -/
def State.given (s : State) (t : Turn) : State := { s with agenda := [t] }

/-- Whether a turn is a step of an agent of the spec in a run: the block's where it has one (42_sequencer.md R151), time's
"at every point of a run" (R69), the module's and the host's cancel input at or after their clock value (R52, 10_state.md
R39). A reset begins another run (70_reset_and_hazards.md R240), and a probe is no step of the spec (log entry 3). -/
def Turn.enabledAt (t : Turn) (s : State) : Bool :=
  match t with
  | .block => s.blockReady
  | .time => true
  | .env n (.moduleSend _ _) => decide (n ≤ s.now)
  | .env n (.setCancel _) => decide (n ≤ s.now)
  | .env _ (.hostReset _) => false
  | .issue _ _ => false

/-- An execution in which every turn is enabled and is a step of the machine. -/
def Execution.IsRun (x : Execution) : Prop :=
  ∀ k, (x.turns k).enabledAt (x.states k) = true ∧ step ((x.states k).given (x.turns k)) = .next (x.states (k + 1))

/-- "advances `now` without bound" (R69). -/
def Execution.TimeAdvances (x : Execution) : Prop := ∀ n, ∃ k, n ≤ (x.states k).now

/-- "a block step that stays enabled is eventually taken (weak fairness)" (R69): after every point the block is at some time
without a step, or takes one. -/
def Execution.WeaklyFair (x : Execution) : Prop :=
  ∀ k, ∃ j, k ≤ j ∧ ((x.states j).blockReady = false ∨ x.turns j = .block)

/-- The executions the model calls complete (R69). The earliest schedule is not one of them where `T_POLL_MS = 0` and nothing is
received, for then it never lets time pass (95_test_vectors.md V22). -/
structure Execution.Complete (x : Execution) : Prop where
  run : x.IsRun
  timeAdvances : x.TimeAdvances
  weaklyFair : x.WeaklyFair

end Sys2Proof.Machine
end

