-- ==== Sys2Proof/Machine/Observe.lean ====
section
/-! DEFINITION. What the spec reads off a state: the sequencer state (spec/10_state.md R23), the operating mode (R25),
settledness (R26), the indicator's realisation (R27), the transmit stream and the log's text (R38, R44), and the line-level
form of a byte (20_memory.md R61). No micro-operation reads any of it. -/

namespace Sys2Proof.Machine

/-- The sequencer states of 10_state.md R23. -/
inductive SequencerState where
  | idle
  | enterConfigMode
  | queryVersion
  | readOldConfig
  | writeNewConfig
  | readBackConfig
  | enterNormalMode
  | done
  | loop
  deriving DecidableEq, Repr

/-- The sequencer state, a function of `s.pc` and `s.run`; none outside the table of R23. -/
def State.sequencerState (s : State) : Option SequencerState :=
  match s.run with
  | .error => none
  | .stopped => none
  | .run =>
    if s.pc = 0 then some .idle
    else if s.pc ≤ 4 then some .enterConfigMode
    else if s.pc ≤ 8 then some .queryVersion
    else if s.pc ≤ 12 then some .readOldConfig
    else if s.pc ≤ 16 then some .writeNewConfig
    else if s.pc ≤ 20 then some .readBackConfig
    else if s.pc ≤ 24 then some .enterNormalMode
    else if s.pc = 25 then some .done
    else if s.pc ≤ 35 then some .loop
    else none

/-- The values of `mode(s)` (10_state.md R25). -/
inductive LineMode where
  | normal
  | configuration
  | reserved
  | unknown
  deriving DecidableEq, Repr

/-- `mode(s)` (R25). -/
def State.mode (s : State) : LineMode :=
  match s.pinA, s.pinB with
  | some .zero, some .zero => .normal
  | some .one, some .one => .configuration
  | some _, some _ => .reserved
  | _, _ => .unknown

/-- "Settledness ... is the pc lying outside {1, 2, 3, 4, 21, 22, 23, 24}" (R26). -/
def State.settled (s : State) : Bool := !s.inSettleWindow

/-- What the indicator shows outside the block (R27). -/
inductive IndicatorOutput where
  /-- The indicator has no output. -/
  | nothing
  /-- It has not been written: any level (93_implementation_defined.md U4). -/
  | unknown
  | colour (rgb : BitVec 24)
  | dark
  | pinHigh
  | pinLow
  deriving DecidableEq, Repr

/-- The indicator's realisation (R27): "`Pixel` shows `PIXEL_RGB` when On and is dark when Off; `Led` drives its pin high
when On and low when Off; `None` has no output". -/
def State.indicatorOutput (s : State) : IndicatorOutput :=
  match s.params.indicatorKind, s.ind with
  | .none, _ => .nothing
  | .pixel, none => .unknown
  | .led, none => .unknown
  | .pixel, some .on => .colour s.params.pixelRgb
  | .pixel, some .off => .dark
  | .led, some .on => .pinHigh
  | .led, some .off => .pinLow

/-- The bytes of a transmit event. -/
def Event.txBytes : Event → Option (List Byte)
  | .tx bs => some bs
  | .pin _ _ => none
  | .ind _ => none
  | .log _ => none

/-- The log event of a trace event. -/
def Event.logPart : Event → Option LogEvent
  | .log e => some e
  | .pin _ _ => none
  | .ind _ => none
  | .tx _ => none

/-- The `UartWrite`s of a trace, in order (20_memory.md R66). -/
def txWrites (trace : List (Event × Nat)) : List (List Byte) := trace.filterMap fun x => x.1.txBytes

/-- The transmit stream (20_memory.md R50). -/
def State.txStream (s : State) : List Byte := (txWrites s.trace).flatten

/-- The log stream's events. -/
def State.logEvents (s : State) : List LogEvent := s.trace.filterMap fun x => x.1.logPart

/-! ## Rendering of log events (42_sequencer.md R156, 43_duplex_loop.md R193, decision D20) -/

/-- A lowercase hexadecimal digit. -/
def hexDigit (n : Nat) : Char := Char.ofNat (if n < 10 then 48 + n else 87 + n)

/-- Two digits per byte (R156). -/
def hexByte (b : Byte) : Text := [hexDigit (b.toNat / 16), hexDigit (b.toNat % 16)]

/-- "lowercase hexadecimal, two digits per byte, no separators" (R156). -/
def hexText (bs : List Byte) : Text := bs.flatMap hexByte

/-- `dec(n)` as text (00_scope.md R8). -/
def decText (n : Nat) : Text := (decDigits n n).map fun d => Char.ofNat (48 + d)

/-- A text without its line breaks. -/
def oneLine (t : Text) : Text := t.filter fun c => decide (c ≠ '\n')

/-- `RENDER_ACTIVITY(text, n)`, the parameter: one line that holds the text and `dec(n)`; the rest of its layout is free, but
breaks no line (R193, log entry 9). DESIGN CHOICE (log entry 9, unsafe): the text stands in it verbatim, so
that a line break received (0x0A) breaks the line; R193 does not say what the line then shows. -/
def renderActivity (layout : ActivityLayout) (t : Text) (n : Nat) : Text :=
  oneLine (Config.activityBefore layout.number t n) ++
    (if Config.activityCounterFirst layout.number t n then decText n ++ oneLine (Config.activityBetween layout.number t n) ++ t
      else t ++ oneLine (Config.activityBetween layout.number t n) ++ decText n) ++
    oneLine (Config.activityAfter layout.number t n) ++ ['\n']

/-- The text of a log event (R156, R193), an activity line in the layout given. -/
def renderLog (layout : ActivityLayout) : LogEvent → Text
  | .logHex _ bs => hexText bs
  | .logNewline => ['\n']
  | .logActivity t n => renderActivity layout t n
  | .logDot => ['.']
  | .logError c => Config.renderError c.number

/-- The log stream as text, in the run's own layout (00_scope.md R6). -/
def State.logText (s : State) : Text := s.logEvents.flatMap (renderLog s.params.renderActivity)

/-! ## Valid UTF-8, the inputs that the default DECODE reads without loss (43_duplex_loop.md R196) -/

/-- The UTF-8 form of a character. -/
def charUtf8 (c : Char) : List Byte :=
  if c.toNat < 0x80 then [BitVec.ofNat 8 c.toNat]
  else if c.toNat < 0x800 then [BitVec.ofNat 8 (0xC0 + c.toNat / 64), BitVec.ofNat 8 (0x80 + c.toNat % 64)]
  else if c.toNat < 0x10000 then
    [BitVec.ofNat 8 (0xE0 + c.toNat / 4096), BitVec.ofNat 8 (0x80 + c.toNat / 64 % 64), BitVec.ofNat 8 (0x80 + c.toNat % 64)]
  else
    [BitVec.ofNat 8 (0xF0 + c.toNat / 262144), BitVec.ofNat 8 (0x80 + c.toNat / 4096 % 64),
      BitVec.ofNat 8 (0x80 + c.toNat / 64 % 64), BitVec.ofNat 8 (0x80 + c.toNat % 64)]

/-- The UTF-8 form of a text. -/
def textUtf8 (t : Text) : List Byte := t.flatMap charUtf8

/-! ## The line level (20_memory.md R61, 70_reset_and_hazards.md R249): informative, "No rule of the model reads" it -/

/-- A byte on the line: a start bit 0, eight data bits least significant first, a stop bit 1 (R61). -/
def lineBits (b : Byte) : List Bool :=
  [false, b.getLsbD 0, b.getLsbD 1, b.getLsbD 2, b.getLsbD 3, b.getLsbD 4, b.getLsbD 5, b.getLsbD 6, b.getLsbD 7, true]

/-- How many bit times a byte sequence takes on the line: 10 a byte (R61). -/
def wireBitTimes (bs : List Byte) : Nat := (bs.flatMap lineBits).length

/-- The same in microseconds at `BAUD`, rounded down (R249). -/
def wireMicroseconds (bs : List Byte) : Nat := wireBitTimes bs * 1000000 / Config.baud

end Sys2Proof.Machine
end

