-- ==== Sys2Proof/Safety.lean ====
section
/-! DEFINITION. What the spec promises of every state of a run: the invariants that statements take as premises and that every
step keeps. They speak of the hardwired machine: one whose agenda holds no probe turn (log entry 3). -/

namespace Sys2Proof.Machine

/-- A turn of the spec's own agents: any but the model's probe. -/
def Turn.ofTheSpec : Turn → Bool
  | .block => true
  | .time => true
  | .env _ _ => true
  | .issue _ _ => false

/-- Whether the next turn is one in which nothing but the block, the module, the host's cancel input or time acts: no probe
and no reset. -/
def State.nextTurnInRun (s : State) : Bool :=
  match s.agenda with
  | .issue _ _ :: _ => false
  | .env _ (.hostReset _) :: _ => false
  | _ => true

/-- Whether the next turn is a reset by the host. -/
def State.nextTurnIsReset (s : State) : Bool :=
  match s.agenda with
  | .env _ (.hostReset _) :: _ => true
  | _ => false

/-- The length of the wait at a pc, in ms; none where the micro-operation is no wait (spec/60_exceptions.md R223). -/
def waitMs (p : Params) (pc : Nat) : Option Nat :=
  if pc = 4 ∨ pc = 24 then some Config.tSettleMs
  else if pc = 6 ∨ pc = 10 ∨ pc = 14 ∨ pc = 18 then some Config.tFrameMs
  else if pc = 27 then some p.tPollMs
  else none

/-- The hardwired machine: no probe turn ahead. -/
def State.Hardwired (s : State) : Prop := ∀ t ∈ s.agenda, t.ofTheSpec = true

/-- Control: where the pc, the run state, the error code, the wait timer and the poll's result stand
(10_state.md R21, R22, R34, R35, 43_duplex_loop.md R187, 60_exceptions.md R211). -/
structure State.ControlInv (s : State) : Prop where
  hardwired : s.Hardwired
  pcInTable : s.pc ≤ 35
  errorHasCode : s.run = .error ↔ s.err ≠ .none
  stoppedAtTick : s.run = .stopped → s.pc = 26
  configErrorAtZero : s.err = .outOfRangeFrequency ∨ s.err = .unknownAirRate ∨ s.err = .pinAssignment → s.pc = 0
  pinFaultAtSetPin : s.err = .pinWriteFault → s.pc = 1 ∨ s.pc = 2 ∨ s.pc = 21 ∨ s.pc = 22
  armedAtWait : ∀ e, s.deadline = some e → ∃ d, waitMs s.params s.pc = some d ∧ e ≤ s.now + d
  hitHasData : s.pc = 28 → s.hit = true → s.rx ≠ []
  readHasData : s.pc = 29 → s.hit = true ∧ s.rx ≠ []
  dataTick : 30 ≤ s.pc → s.pc ≤ 32 → s.hit = true ∧ s.inbound ≠ []
  timeoutTick : 33 ≤ s.pc → s.hit = false

/-- The level of line A at a pc (40_mode_controller.md R100, R101, R103). -/
def lineAAt (pc : Nat) : Option Level := if pc ≤ 1 then none else if pc ≤ 21 then some .one else some .zero

/-- The level of line B at a pc. -/
def lineBAt (pc : Nat) : Option Level := if pc ≤ 2 then none else if pc ≤ 22 then some .one else some .zero

/-- The lines and the indicator follow the pc: On in Configuration, Off on return to Normal, then On after a data tick's
`SETIND` and Off after a timeout tick's, which stays until the next tick's own: from a tick's end to the next poll's
completion `s.hit` still says which kind it was (40_mode_controller.md R109, 43_duplex_loop.md R198). -/
structure State.LinesInv (s : State) : Prop where
  hardwired : s.Hardwired
  lineA : s.pinA = lineAAt s.pc
  lineB : s.pinB = lineBAt s.pc
  indUnwritten : s.pc ≤ 3 → s.ind = none
  indConfiguration : 4 ≤ s.pc → s.pc ≤ 23 → s.ind = some .on
  indNormal : s.pc = 24 ∨ s.pc = 25 → s.ind = some .off
  indActive : s.pc = 31 ∨ s.pc = 32 → s.ind = some .on
  indIdle : s.pc = 34 ∨ s.pc = 35 → s.ind = some .off
  indTick : s.pc = 26 ∨ s.pc = 27 → s.ind = some (if s.hit then .on else .off)
  hitUnwritten : s.pc ≤ 25 → s.hit = false
  hitData : 29 ≤ s.pc → s.pc ≤ 32 → s.hit = true
  hitTimeout : 33 ≤ s.pc → s.hit = false
  indWritten : 24 ≤ s.pc → s.ind ≠ none

/-- How many of the four command frames are sent at a pc (42_sequencer.md R150). -/
def framesSentAt (pc : Nat) : Nat :=
  if pc ≤ 5 then 0 else if pc ≤ 9 then 1 else if pc ≤ 13 then 2 else if pc ≤ 17 then 3 else 4

/-- The four `UartWrite`s of the configuration phase (42_sequencer.md R161). -/
def configurationWrites (c : ConfigRegisters) : List (List Byte) :=
  [queryVersionFrame, readConfigFrame, writeConfigFrame c, readConfigFrame]

/-- How many link messages are sent: one for each completed tick, and one more once this tick has sent its own
(43_duplex_loop.md R182, R198). -/
def State.messagesSent (s : State) : Nat :=
  if s.pc ≤ 25 then 0
  else if s.pc = 26 ∨ s.pc = 32 ∨ s.pc = 35 then s.cnt
  else s.cnt - 1

/-- The messages of ticks 1, 2, 3, ... in order: the k-th is a heartbeat or a reply that carries k (R182, R198). -/
def tickMessages (ms : List (List Byte)) : Prop :=
  ∀ k m, ms[k]? = some m → m = heartbeatBytes (k + 1) ∨ m = replyBytes (k + 1)

/-- The configuration and all that has been sent: `s.cfg` is what the parameters give from pc 1 on, the frames of the
configuration phase stand in the stream as far as the pc has come, and then one message a tick (10_state.md R28,
42_sequencer.md R161, 43_duplex_loop.md R198). -/
structure State.HistoryInv (s : State) : Prop where
  hardwired : s.Hardwired
  cfgUnbuilt : s.pc = 0 → s.cfg = none
  cfgBuilt : 1 ≤ s.pc → ∃ c, s.cfg = some c ∧ validConfig s.params = some c
  tickCounted : 27 ≤ s.pc → 1 ≤ s.cnt
  sent : ∃ ms, tickMessages ms ∧ ms.length = s.messagesSent ∧
    txWrites s.trace =
      (match validConfig s.params with
        | some c => (configurationWrites c).take (framesSentAt s.pc)
        | none => []) ++ ms

/-- The least clock value at which the block can stand at a pc (42_sequencer.md R160). -/
def leastClock (pc : Nat) : Nat :=
  if pc ≤ 4 then 0 else if pc ≤ 6 then 50 else if pc ≤ 10 then 100 else if pc ≤ 14 then 150
  else if pc ≤ 18 then 200 else if pc ≤ 24 then 250 else 300

/-- The clock values of R160 are lower bounds, and an armed wait ends no earlier than the next pc's. -/
structure State.TimingInv (s : State) : Prop where
  hardwired : s.Hardwired
  clock : leastClock s.pc ≤ s.now
  armedAtWait : ∀ e, s.deadline = some e → waitMs s.params s.pc ≠ none
  armedClock : ∀ e, s.deadline = some e → leastClock (s.pc + 1) ≤ e

/-- An event of the transmit kind. -/
def Event.isTx : Event → Bool
  | .tx _ => true
  | .pin _ _ => false
  | .ind _ => false
  | .log _ => false

/-- The log of a response. -/
def Event.isResponse : Event → Bool
  | .log (.logHex _ _) => true
  | .log .logNewline => false
  | .log (.logActivity _ _) => false
  | .log .logDot => false
  | .log (.logError _) => false
  | .pin _ _ => false
  | .ind _ => false
  | .tx _ => false

/-- Two events of a trace, the first before the second, kept apart by the block's two gates: a frame or message at least
`T_SETTLE_MS` after a pin write, a response's log at least `T_FRAME_MS` after a frame (20_memory.md R67). -/
def gateGap (x y : Event × Nat) : Prop :=
  x.2 ≤ y.2 ∧
  (x.1.isPin = true → y.1.isTx = true → x.2 + Config.tSettleMs ≤ y.2) ∧
  (x.1.isTx = true → y.1.isResponse = true → x.2 + Config.tFrameMs ≤ y.2)

/-- A pc from which the block reads or logs a response, the inter-frame gate passed. -/
def responsePc (pc : Nat) : Bool :=
  decide (pc = 7 ∨ pc = 8 ∨ pc = 11 ∨ pc = 12 ∨ pc = 15 ∨ pc = 16 ∨ pc = 19 ∨ pc = 20)

/-- The timing gates: every pair of the trace keeps its gap, and the gate under way will (20_memory.md R67,
70_reset_and_hazards.md R243, R244). -/
structure State.GateInv (s : State) : Prop where
  hardwired : s.Hardwired
  gaps : s.trace.Pairwise gateGap
  past : ∀ x ∈ s.trace, x.2 ≤ s.now
  armedAtWait : ∀ e, s.deadline = some e → waitMs s.params s.pc ≠ none
  settled : s.settled = true → ∀ x ∈ s.trace, x.1.isPin = true → x.2 + Config.tSettleMs ≤ s.now
  settling : ∀ e, s.deadline = some e → s.pc = 4 ∨ s.pc = 24 →
    ∀ x ∈ s.trace, x.1.isPin = true → x.2 + Config.tSettleMs ≤ e
  answered : responsePc s.pc = true → ∀ x ∈ s.trace, x.1.isTx = true → x.2 + Config.tFrameMs ≤ s.now
  awaiting : ∀ e, s.deadline = some e → s.pc = 6 ∨ s.pc = 10 ∨ s.pc = 14 ∨ s.pc = 18 →
    ∀ x ∈ s.trace, x.1.isTx = true → x.2 + Config.tFrameMs ≤ e

/-- A state of a safe run: every invariant holds. The run may still end in ERROR or STOPPED, as the spec says it may; what
cannot happen is a step the model has no answer for. -/
structure State.Safe (s : State) : Prop where
  control : s.ControlInv
  lines : s.LinesInv
  history : s.HistoryInv
  timing : s.TimingInv
  gates : s.GateInv

end Sys2Proof.Machine
end

