-- ==== Sys2Proof/Certificates/Slice0/Obligations.lean ====
section
/-! DEFINITION. The statements for the provers, from the numbered rules of spec/. Each statement of an instruction's effect is
an equation for the whole next state, so it is the instruction's frame as well: every element it does not name is unchanged.
The block has no addressed memory (20_memory.md R50), so a frame speaks of the receive buffer and the trace in its place. -/

open Sys2Proof Sys2Proof.Machine

/-! ## Encodings -/

/-- Words written out bit by bit from 30_encoding.md: R71, R72, R73 (95_test_vectors.md V13, fourth row), R82 (V20), R80, R81,
and pc 17 of 42_sequencer.md R150. -/
def Obligations.WrittenOutWordsDecode : Prop :=
  decode (.bytes [0b11000011#8, 0b11000011#8, 0b11000011#8]) = .ok .frameQv ∧
  decode (.bytes [0b11000001#8, 0b11000001#8, 0b11000001#8]) = .ok .frameRc ∧
  decode (.bytes [0b11000010#8, 0x12#8, 0x34#8, 0b00011100#8, 0x3B#8, 0b01000101#8]) =
    .ok (.frameWc 0x1234#16 .bps9600 59#8 false .pushPull 0#3 true .dbm27) ∧
  decode (.bytes [0x72#8, 0x61#8, 0x64#8, 0x69#8, 0x6F#8, 0x20#8, 0x31#8, 0x30#8]) = .ok (.msgHeartbeat 10) ∧
  decode (.bytes [0x74#8, 0x77#8, 0x6F#8, 0x77#8, 0x61#8, 0x79#8, 0x20#8, 0x32#8]) = .ok (.msgReply 2) ∧
  decode (.pins .zero .zero) = .ok .pinsNormal ∧ decode (.pins .one .one) = .ok .pinsConfiguration ∧
  decode (.pins .zero .one) = .ok (.pinsReserved .zero .one) ∧
  decode (.pins .one .zero) = .ok (.pinsReserved .one .zero) ∧ decode (.micro 17) = .ok .sendRc17

/-- Every well-formed row sent as bytes is read back from the transmit stream with every operand: a frame whatever follows
it, its length being told by its first byte (R79), and a message whatever follows that is no digit, for it ends with its
digits (R71, R72, R73, R82). -/
def Obligations.SentRowsAreReadBack : Prop :=
  ∀ (i : Instr) (bs rest : List Byte), i.wellFormed = true → encode i = .bytes bs →
    ((∃ n, i = .msgHeartbeat n ∨ i = .msgReply n) → ∀ b tl, rest = b :: tl → digitValue b = none) →
    decodeBytes (bs ++ rest) = .ok (i, rest)

/-- Encoding what the reader of the transmit stream accepts gives the bytes read, and the row is well-formed but for one
case: a Write-config frame's channel byte outside 53..66, which the reader takes as it stands (the model's choice, log
entry 22). -/
def Obligations.ReadRowsReencode : Prop :=
  ∀ (bs rest : List Byte) (i : Instr), decodeBytes bs = .ok (i, rest) →
    (∃ es, encode i = .bytes es ∧ bs = es ++ rest) ∧
    (i.wellFormed = true ∨ ∃ address rate channel fixed drive wakeup fec power,
      i = .frameWc address rate channel fixed drive wakeup fec power ∧ ¬(53 ≤ channel.toNat ∧ channel.toNat ≤ 66))

/-- The pcs select the micro-operations one to one, and no pc from 36 on selects any (42_sequencer.md R150). -/
def Obligations.MicroOpsAreSelectedByPc : Prop :=
  (∀ (pc : Nat) (i : Instr), microOpAt pc = some i ↔ encode i = .micro pc) ∧
  (∀ pc, microOpAt pc = none ↔ 36 ≤ pc)

/-- "tells a frame's length from its first byte: 0xC3 or 0xC1 begins a 3-byte frame of three identical bytes; 0xC2 begins a
6-byte frame" (R79); any other encoding read from the stream is a message, whose first byte is 0x72 or 0x74. -/
def Obligations.FirstByteTellsLength : Prop :=
  ∀ (b : Byte) (bs rest : List Byte) (i : Instr), decodeBytes (b :: bs) = .ok (i, rest) →
    (b = 0xC3#8 → i = .frameQv ∧ b :: bs = [0xC3#8, 0xC3#8, 0xC3#8] ++ rest) ∧
    (b = 0xC1#8 → i = .frameRc ∧ b :: bs = [0xC1#8, 0xC1#8, 0xC1#8] ++ rest) ∧
    (b = 0xC2#8 → bs.length = 5 + rest.length ∧
      ∃ address rate channel fixed drive wakeup fec power, i = .frameWc address rate channel fixed drive wakeup fec power) ∧
    (b ≠ 0xC3#8 → b ≠ 0xC1#8 → b ≠ 0xC2#8 →
      (b = 0x72#8 ∧ ∃ n, i = .msgHeartbeat n) ∨ (b = 0x74#8 ∧ ∃ n, i = .msgReply n))

/-- The decimal digits of a number: ASCII digits, the number itself, at least one, and no leading zero
(00_scope.md R8, 30_encoding.md R82). -/
def Obligations.DecimalDigits : Prop :=
  ∀ n, (∀ b ∈ decBytes n, ∃ d, d < 10 ∧ b = BitVec.ofNat 8 (0x30 + d)) ∧
    digitsValue ((decBytes n).map fun b => b.toNat - 0x30) = n ∧
    decBytes n ≠ [] ∧ (0 < n → (decBytes n).head? ≠ some 0x30#8) ∧ (n = 0 → decBytes n = [0x30#8])

/-- The six bytes of the Write-config frame that `VALIDATE`'s image gives, field by field as R85 assembles them. -/
def Obligations.WriteConfigFrameLayout : Prop :=
  ∀ (p : Params) (rate : AirRate), freqOk p.freqMHz = true → airRateOf p.airRateBps = some rate →
    ∃ addh addl sped chan option : Byte,
      writeConfigFrame (registersFor p rate) = [0xC2#8, addh, addl, sped, chan, option] ∧
      addh = p.address.extractLsb' 8 8 ∧ addl = p.address.extractLsb' 0 8 ∧
      sped.extractLsb' 3 5 = 0b00011#5 ∧ sped.extractLsb' 0 3 = rate.code ∧
      (chan.toNat : Int) = p.freqMHz - 862 ∧ 53 ≤ chan.toNat ∧ chan.toNat ≤ 66 ∧
      option.getLsbD 7 = p.fixedMode ∧ option.getLsbD 6 = decide (p.driveMode = .pushPull) ∧
      option.extractLsb' 3 3 = p.wakeupCode ∧ option.getLsbD 2 = p.fecEn ∧
      option.extractLsb' 0 2 = p.powerDbm.code

/-! ## The codec -/

/-- `freq_ok(f) = (915 ≤ f ∧ f ≤ 928)` (R121), its examples, and what construction does outside the range. -/
def Obligations.FrequencyBounds : Prop :=
  (∀ f : Int, freqOk f = true ↔ 915 ≤ f ∧ f ≤ 928) ∧
  (∀ s : State, ¬(915 ≤ s.params.freqMHz ∧ s.params.freqMHz ≤ 928) → rateOk s.params.airRateBps = true →
    ∃ t, exec .validate s = .next t ∧ t.run = .error ∧ t.err = .outOfRangeFrequency ∧ t.cfg = s.cfg) ∧
  freqOk 915 = true ∧ freqOk 928 = true ∧ freqOk 914 = false ∧ freqOk 929 = false ∧ freqOk 868 = false

/-- `channel_byte(f) = f − 862`, in [53, 66], with no wrap (R123, R75). -/
def Obligations.ChannelByteExact : Prop :=
  (∀ f : Int, freqOk f = true →
    ((channelByte f).toNat : Int) = f - 862 ∧ 53 ≤ (channelByte f).toNat ∧ (channelByte f).toNat ≤ 66) ∧
  channelByte 920 = 0x3A#8

/-- `rate_ok`, `AIR_RATE_CODE` and `sped_byte` (R122, R124, R125), and what construction does on another rate. -/
def Obligations.AirRateCodes : Prop :=
  (∀ r : Int, rateOk r = true ↔ r = 300 ∨ r = 1200 ∨ r = 2400 ∨ r = 4800 ∨ r = 9600 ∨ r = 19200) ∧
  (∀ r : Int, rateOk r = true → ∃ rate, airRateOf r = some rate) ∧
  (∀ s : State, rateOk s.params.airRateBps = false → freqOk s.params.freqMHz = true →
    ∃ t, exec .validate s = .next t ∧ t.run = .error ∧ t.err = .unknownAirRate ∧ t.cfg = s.cfg) ∧
  (∀ (r : Int) (rate : AirRate), airRateOf r = some rate →
    (r = 300 → rate.code = 0#3) ∧ (r = 1200 → rate.code = 1#3) ∧ (r = 2400 → rate.code = 2#3) ∧
    (r = 4800 → rate.code = 3#3) ∧ (r = 9600 → rate.code = 4#3) ∧ (r = 19200 → rate.code = 5#3) ∧
    (spedByte rate).toNat = 0x18 + rate.code.toNat ∧ (spedByte rate).extractLsb' 0 3 = rate.code)

/-- `option_byte = FIXED_MODE·0x80 + (DRIVE_MODE = PushPull)·0x40 + WAKEUP_CODE·0x08 + FEC_EN·0x04 + POWER_CODE(POWER_DBM)`
(R126). -/
def Obligations.OptionByteSum : Prop :=
  (∀ (x : Bool) (d : DriveMode) (w : BitVec 3) (f : Bool) (p : PowerLevel),
    (optionByte x d w f p).toNat =
      x.toNat * 0x80 + (decide (d = .pushPull)).toNat * 0x40 + w.toNat * 0x08 + f.toNat * 0x04 + p.code.toNat) ∧
  PowerLevel.code .dbm30 = 0b00#2 ∧ PowerLevel.code .dbm27 = 0b01#2 ∧ PowerLevel.code .dbm24 = 0b10#2 ∧
  PowerLevel.code .dbm21 = 0b11#2

/-- `VALIDATE` (R130): it completes on two good inputs with the image of the parameters and pc 1; on one bad input it takes
the fatal entry with that input's code; on two, with one of the two codes, a draw (U6). Where the draw counter stands after
it (`d`) is the model's own and left open here. -/
def Obligations.ValidateOutcome : Prop :=
  microOpAt 0 = some .validate ∧
  ∀ s : State,
    (∀ rate, freqOk s.params.freqMHz = true → airRateOf s.params.airRateBps = some rate →
      exec .validate s = .next { s with
        cfg := some
          { addh := s.params.address.extractLsb' 8 8, addl := s.params.address.extractLsb' 0 8, sped := spedByte rate,
            chan := channelByte s.params.freqMHz,
            option := optionByte s.params.fixedMode s.params.driveMode s.params.wakeupCode s.params.fecEn s.params.powerDbm }
        pc := 1 }) ∧
    (freqOk s.params.freqMHz = false → rateOk s.params.airRateBps = true →
      exec .validate s = .next { s with
        run := .error, err := .outOfRangeFrequency
        trace := s.trace ++ [(.log (.logError .outOfRangeFrequency), s.now)] }) ∧
    (freqOk s.params.freqMHz = true → rateOk s.params.airRateBps = false →
      exec .validate s = .next { s with
        run := .error, err := .unknownAirRate
        trace := s.trace ++ [(.log (.logError .unknownAirRate), s.now)] }) ∧
    (freqOk s.params.freqMHz = false → rateOk s.params.airRateBps = false →
      ∃ c d, (c = .outOfRangeFrequency ∨ c = .unknownAirRate) ∧
        exec .validate s = .next { s with
          run := .error, err := c, trace := s.trace ++ [(.log (.logError c), s.now)], draws := d })

/-- `SEND QV` and `SEND RC` (R132, R134): the three bytes in one event, and the pc. -/
def Obligations.QueryFramesAreSent : Prop :=
  microOpAt 5 = some .sendQv ∧ microOpAt 9 = some .sendRc9 ∧ microOpAt 17 = some .sendRc17 ∧
  ∀ s : State,
    exec .sendQv s = .next { s with trace := s.trace ++ [(.tx [0xC3#8, 0xC3#8, 0xC3#8], s.now)], pc := 6 } ∧
    ∀ i ∈ [Instr.sendRc9, Instr.sendRc17],
      exec i s = .next { s with trace := s.trace ++ [(.tx [0xC1#8, 0xC1#8, 0xC1#8], s.now)], pc := s.pc + 1 }

/-- `SEND WC` (R133): the opcode and the five staged bytes in one event; `s.cfg` is not changed. Without a configuration the
model stops by name (log entry 10): the frame is not defined there (R131). -/
def Obligations.WriteConfigFrameIsSent : Prop :=
  microOpAt 13 = some .sendWc ∧
  ∀ s : State,
    (∀ c, s.cfg = some c →
      exec .sendWc s = .next { s with
        trace := s.trace ++ [(.tx [0xC2#8, c.addh, c.addl, c.sped, c.chan, c.option], s.now)], pc := 14 }) ∧
    (s.cfg = none → exec .sendWc s = .fault .cfgNotBuilt)

/-! ## The Mode Controller -/

/-- The four `SETPIN`s where no pin write can fail (R102, R57): the latch, the event, the pc, whatever the line held. -/
def Obligations.SetPinWritesItsLine : Prop :=
  microOpAt 1 = some .setPinA1 ∧ microOpAt 2 = some .setPinB1 ∧ microOpAt 21 = some .setPinA0 ∧
  microOpAt 22 = some .setPinB0 ∧
  ∀ s : State, s.params.pinWriteCanFail = false →
    exec .setPinA1 s =
      .next { s with pinA := some .one, trace := s.trace ++ [(.pin .a .one, s.now)], pc := s.pc + 1 } ∧
    exec .setPinB1 s =
      .next { s with pinB := some .one, trace := s.trace ++ [(.pin .b .one, s.now)], pc := s.pc + 1 } ∧
    exec .setPinA0 s =
      .next { s with pinA := some .zero, trace := s.trace ++ [(.pin .a .zero, s.now)], pc := s.pc + 1 } ∧
    exec .setPinB0 s =
      .next { s with pinB := some .zero, trace := s.trace ++ [(.pin .b .zero, s.now)], pc := s.pc + 1 }

/-- A `SETPIN` where a pin write can fail: the draw gives either the write or the fatal entry with neither the latch nor the
event of the write (R215). The draw counter is the model's own, and the draw a free value (log entries 4 and 5). -/
def Obligations.SetPinMayFail : Prop :=
  ∀ (s : State) (i : Instr) (p : Line) (v : Level), s.params.pinWriteCanFail = true →
    (i = .setPinA1 ∧ p = .a ∧ v = .one ∨ i = .setPinB1 ∧ p = .b ∧ v = .one ∨
      i = .setPinA0 ∧ p = .a ∧ v = .zero ∨ i = .setPinB0 ∧ p = .b ∧ v = .zero) →
    exec i s = .next (
      if Config.pinWriteFails s.draws then
        { s with
          run := .error, err := .pinWriteFault, draws := s.draws + 1
          trace := s.trace ++ [(.log (.logError .pinWriteFault), s.now)] }
      else
        { s with
          pinA := (if p = .a then some v else s.pinA), pinB := (if p = .b then some v else s.pinB)
          trace := s.trace ++ [(.pin p v, s.now)], pc := s.pc + 1, draws := s.draws + 1 })

/-- The four `SETIND`s (R105, R188, R191, R58): the output, the event, the pc, whatever the indicator held and whatever its
kind is; with no indicator nothing shows outside. -/
def Obligations.IndicatorIsSet : Prop :=
  microOpAt 3 = some .setIndOn3 ∧ microOpAt 23 = some .setIndOff23 ∧ microOpAt 30 = some .setIndOn30 ∧
  microOpAt 33 = some .setIndOff33 ∧
  ∀ s : State,
    exec .setIndOn3 s = .next { s with ind := some .on, trace := s.trace ++ [(.ind .on, s.now)], pc := s.pc + 1 } ∧
    exec .setIndOff23 s = .next { s with ind := some .off, trace := s.trace ++ [(.ind .off, s.now)], pc := s.pc + 1 } ∧
    exec .setIndOn30 s = .next { s with ind := some .on, trace := s.trace ++ [(.ind .on, s.now)], pc := 31 } ∧
    exec .setIndOff33 s = .next { s with ind := some .off, trace := s.trace ++ [(.ind .off, s.now)], pc := 34 } ∧
    (s.params.indicatorKind = .none → ∀ v, ({ s with ind := v } : State).indicatorOutput = .nothing)

/-- The six `DELAY`s (R56, R106, R152): arming leaves the pc and sets the deadline 50 ms on; from the deadline on the
delay completes; before it the block has no step, and the module may still append. That a turn given to a block without a
step passes with nothing changed, and that the agenda names the module's move, are the model's choices (log entries 1
and 18). -/
def Obligations.DelayGates : Prop :=
  (microOpAt 4 = some .delaySettle4 ∧ microOpAt 24 = some .delaySettle24 ∧ microOpAt 6 = some .delayFrame6 ∧
    microOpAt 10 = some .delayFrame10 ∧ microOpAt 14 = some .delayFrame14 ∧ microOpAt 18 = some .delayFrame18) ∧
  ∀ (s : State), ∀ i ∈ [Instr.delaySettle4, .delaySettle24, .delayFrame6, .delayFrame10, .delayFrame14, .delayFrame18],
    (s.deadline = none → exec i s = .next { s with deadline := some (s.now + 50) }) ∧
    (∀ e, s.deadline = some e → e ≤ s.now → exec i s = .next { s with deadline := none, pc := s.pc + 1 }) ∧
    (∀ e, s.deadline = some e → s.now < e → microOpAt s.pc = some i →
      s.blockReady = false ∧ blockTurn s = .next s ∧
      ∀ b bs rest, s.agenda = .env 0 (.moduleSend b bs) :: rest → step s = .next { s with rx := s.rx ++ b :: bs, agenda := rest })

/-- The two transitions from any running state at their first pc that has no wait armed, under the earliest schedule (the
agenda empty, log entry 11). `ENTER(Configuration)`: 55 steps later both lines are high, the indicator is On, 50 ms have
passed and the pc is 5 (R100). `ENTER(Normal)`: in the same way from pc 21 to pc 25, both lines low and the indicator Off
(R101). -/
def Obligations.TransitionsRun : Prop :=
  ∀ s : State, s.run = .run → s.deadline = none → s.agenda = [] → s.params.pinWriteCanFail = false →
    (s.pc = 1 → Sys2Proof.core.run 55 s = .next { s with
      pc := 5, pinA := some .one, pinB := some .one, ind := some .on, now := s.now + 50
      trace := s.trace ++ [(.pin .a .one, s.now), (.pin .b .one, s.now), (.ind .on, s.now)] }) ∧
    (s.pc = 21 → Sys2Proof.core.run 55 s = .next { s with
      pc := 25, pinA := some .zero, pinB := some .zero, ind := some .off, now := s.now + 50
      trace := s.trace ++ [(.pin .a .zero, s.now), (.pin .b .zero, s.now), (.ind .off, s.now)] })

/-! ## The Configuration Sequencer -/

/-- The five `READAVAIL`s (R153, R187, R54): every byte of the buffer at once, possibly none, and the buffer empty after. -/
def Obligations.ReadsTakeTheBuffer : Prop :=
  (microOpAt 7 = some .readAvailRbuf7 ∧ microOpAt 11 = some .readAvailRbuf11 ∧ microOpAt 15 = some .readAvailRbuf15 ∧
    microOpAt 19 = some .readAvailRbuf19 ∧ microOpAt 29 = some .readAvailInbound) ∧
  ∀ s : State,
    (∀ i ∈ [Instr.readAvailRbuf7, .readAvailRbuf11, .readAvailRbuf15, .readAvailRbuf19],
      exec i s = .next { s with rbuf := s.rx, rx := [], pc := s.pc + 1 }) ∧
    exec .readAvailInbound s = .next { s with inbound := s.rx, rx := [], pc := 30 }

/-- The four `LOGHEX`s (R156): the buffer under the step's tag, empty or not; the buffer is kept. Its rendering is two
lowercase hexadecimal digits per byte. -/
def Obligations.ResponsesAreLogged : Prop :=
  (microOpAt 8 = some .logHexQueryVersion ∧ microOpAt 12 = some .logHexReadOld ∧ microOpAt 16 = some .logHexWriteNew ∧
    microOpAt 20 = some .logHexReadBack) ∧
  (∀ s : State, ∀ x ∈ [(Instr.logHexQueryVersion, ExchangeTag.queryVersion), (.logHexReadOld, .readOld),
      (.logHexWriteNew, .writeNew), (.logHexReadBack, .readBack)],
    exec x.1 s = .next { s with trace := s.trace ++ [(.log (.logHex x.2 s.rbuf), s.now)], pc := s.pc + 1 }) ∧
  (∀ l tag, renderLog l (.logHex tag []) = []) ∧
  (∀ l tag b bs, renderLog l (.logHex tag (b :: bs)) =
    hexDigit (b.toNat / 16) :: hexDigit (b.toNat % 16) :: renderLog l (.logHex tag bs)) ∧
  (List.range 16).map hexDigit =
    ['0', '1', '2', '3', '4', '5', '6', '7', '8', '9', 'a', 'b', 'c', 'd', 'e', 'f'] ∧
  (∀ l tag, renderLog l (.logHex tag [0xC0#8, 0x0A#8]) = ['c', '0', '0', 'a'])

/-- The rendering of a response loses no byte: two of the sixteen lowercase digits per byte, and equal texts come from equal
bytes (R156). -/
def Obligations.HexTextIsFaithful : Prop :=
  ∀ bs cs : List Byte,
    (hexText bs).length = 2 * bs.length ∧
    (∀ c ∈ hexText bs, ('0' ≤ c ∧ c ≤ '9') ∨ ('a' ≤ c ∧ c ≤ 'f')) ∧
    (hexText bs = hexText cs → bs = cs)

/-- A frame exchange under the earliest schedule (R154): 55 steps from its `SEND`, the frame is sent, the buffer has been
read 50 ms later and logged under the exchange's tag, and the pc is four on, whatever the buffer held. -/
def Obligations.ExchangeRun : Prop :=
  ∀ (s : State) (c : ConfigRegisters), s.run = .run → s.deadline = none → s.agenda = [] → s.cfg = some c →
    ∀ x ∈ [(5, [0xC3#8, 0xC3#8, 0xC3#8], ExchangeTag.queryVersion), (9, [0xC1#8, 0xC1#8, 0xC1#8], .readOld),
        (13, [0xC2#8, c.addh, c.addl, c.sped, c.chan, c.option], .writeNew), (17, [0xC1#8, 0xC1#8, 0xC1#8], .readBack)],
      s.pc = x.1 →
      Sys2Proof.core.run 55 s = .next { s with
        pc := x.1 + 4, rbuf := s.rx, rx := [], now := s.now + 50
        trace := s.trace ++ [(.tx x.2.1, s.now), (.log (.logHex x.2.2 s.rx), s.now + 50)] }

/-- From pc 1 to pc 24 every step leaves the pc or moves it on by one, whatever the module answered and whatever else the
agents did: "no branching on failure" (R157). -/
def Obligations.NoBranchingOnFailure : Prop :=
  ∀ s t : State, 1 ≤ s.pc → s.pc ≤ 24 → s.nextTurnInRun = true → step s = .next t →
    t.pc = s.pc ∨ t.pc = s.pc + 1

/-- Once the configuration phase is done, no step but a reset leads back, not even one of the model's probe (log entry 3):
pc 25 leads to 26, 26..35 to 26..35, and no line goes high (R159, R247, 43_duplex_loop.md R197). In every state a
micro-operation that a probe asks for is refused by name (log entry 19). -/
def Obligations.NoReentry : Prop :=
  (∀ s t : State, 25 ≤ s.pc → s.pc ≤ 35 → s.nextTurnIsReset = false → step s = .next t →
    (s.pc = 25 → t.pc = 25 ∨ t.pc = 26) ∧ (26 ≤ s.pc → 26 ≤ t.pc ∧ t.pc ≤ 35) ∧
    (t.pinA = s.pinA ∨ t.pinA = some .zero) ∧ (t.pinB = s.pinB ∨ t.pinB = some .zero)) ∧
  (∀ (s : State) (nbits w pc : Nat) (i : Instr) (rest : List Turn), s.run = .run → s.agenda = .issue nbits w :: rest →
    decodeTableWord nbits w = some i → encode i = .micro pc → step s = .refused .selectedByPc)

/-! ## The Duplex Message Loop -/

/-- `LOOPINIT` (R181). -/
def Obligations.LoopStarts : Prop :=
  microOpAt 25 = some .loopInit ∧
  ∀ s : State, exec .loopInit s = .next { s with cnt := 0, nlOwed := false, pc := 26 }

/-- `TICK` (R183, R185): the counter goes up by one, or the cancel input stops the block and nothing else changes. -/
def Obligations.TickCountsOrStops : Prop :=
  microOpAt 26 = some .tick ∧
  ∀ s : State,
    (s.cancel = false → exec .tick s = .next { s with cnt := s.cnt + 1, pc := 27 }) ∧
    (s.cancel = true → exec .tick s = .next { s with run := .stopped })

/-- `POLL T_POLL` (R184, R55): it arms; it completes true on data, also after the deadline, and false from the deadline on
without; it consumes no byte; before that the block has no step. That a turn given to a block without a step passes with
nothing changed is the model's choice (log entries 1 and 18). -/
def Obligations.PollWaitsForData : Prop :=
  microOpAt 27 = some .pollTPoll ∧
  ∀ s : State,
    (s.deadline = none → exec .pollTPoll s = .next { s with deadline := some (s.now + s.params.tPollMs) }) ∧
    (∀ e, s.deadline = some e → s.rx ≠ [] → exec .pollTPoll s = .next { s with deadline := none, hit := true, pc := 28 }) ∧
    (∀ e, s.deadline = some e → s.rx = [] → e ≤ s.now →
      exec .pollTPoll s = .next { s with deadline := none, hit := false, pc := 28 }) ∧
    (∀ e, s.deadline = some e → s.rx = [] → s.now < e → s.pc = 27 → s.blockReady = false ∧ blockTurn s = .next s)

/-- `BRANCH HIT, 29, 33` (R186). -/
def Obligations.BranchOnHit : Prop :=
  microOpAt 28 = some .branchHit ∧
  ∀ s : State,
    (s.hit = true → exec .branchHit s = .next { s with pc := 29 }) ∧
    (s.hit = false → exec .branchHit s = .next { s with pc := 33 })

/-- `SEND REPLY` and `SEND HEARTBEAT` (R189, R192, R82): the words, a space and the counter's digits, with no terminator. -/
def Obligations.MessagesAreSent : Prop :=
  microOpAt 31 = some .sendReply ∧ microOpAt 34 = some .sendHeartbeat ∧
  ∀ s : State,
    exec .sendReply s = .next { s with
      trace := s.trace ++
        [(.tx ([0x74#8, 0x77#8, 0x6F#8, 0x77#8, 0x61#8, 0x79#8, 0x20#8] ++ decBytes s.cnt), s.now)]
      pc := 32 } ∧
    exec .sendHeartbeat s = .next { s with
      trace := s.trace ++ [(.tx ([0x72#8, 0x61#8, 0x64#8, 0x69#8, 0x6F#8, 0x20#8] ++ decBytes s.cnt), s.now)]
      pc := 35 }

/-- `LOGACT` (R190): the newline first where one is owed, then the activity line with the decoded bytes and the counter, and
back to pc 26 with no newline owed. -/
def Obligations.ActivityIsLogged : Prop :=
  microOpAt 32 = some .logAct ∧
  ∀ s : State, exec .logAct s = .next { s with
    nlOwed := false, pc := 26
    trace := s.trace ++
      ((if s.nlOwed then [(.log .logNewline, s.now)] else []) ++
        [(.log (.logActivity (decodeText s.params.decode s.inbound) s.cnt), s.now)]) }

/-- `LOGDOT` (R194). -/
def Obligations.DotIsLogged : Prop :=
  microOpAt 35 = some .logDot ∧
  ∀ s : State, exec .logDot s = .next { s with
    trace := s.trace ++ [(.log .logDot, s.now)], nlOwed := true, pc := 26 }

/-- A tick under the earliest schedule, from any running state at pc 26 with no cancel (R180, R198). With nothing received:
`T_POLL_MS` later the indicator is Off, one heartbeat with the new counter is sent, and the block is back at pc 26. With
bytes received: the indicator is On, one reply with the new counter is sent, the bytes are read and logged, in no modelled
time. -/
def Obligations.TicksRun : Prop :=
  ∀ s : State, s.run = .run → s.pc = 26 → s.deadline = none → s.agenda = [] → s.cancel = false →
    (s.rx = [] → Sys2Proof.core.run (s.params.tPollMs + 7) s = .next { s with
      cnt := s.cnt + 1, hit := false, ind := some .off, nlOwed := true, now := s.now + s.params.tPollMs
      trace := s.trace ++
        [(.ind .off, s.now + s.params.tPollMs), (.tx (heartbeatBytes (s.cnt + 1)), s.now + s.params.tPollMs),
          (.log .logDot, s.now + s.params.tPollMs)] }) ∧
    (s.rx ≠ [] → Sys2Proof.core.run 8 s = .next { s with
      cnt := s.cnt + 1, hit := true, ind := some .on, nlOwed := false, inbound := s.rx, rx := []
      trace := s.trace ++
        ([(.ind .on, s.now), (.tx (replyBytes (s.cnt + 1)), s.now)] ++
          (if s.nlOwed then [(.log .logNewline, s.now)] else []) ++
          [(.log (.logActivity (decodeText s.params.decode s.rx) (s.cnt + 1)), s.now)]) })

/-- Every `DECODE`, the default or another (R196), decodes valid UTF-8 and discards nothing: however an input is cut into a
text, stretches of bytes each followed by a text, and last bytes, the texts stand in the result, and something of every
stretch between them. The default gives U+FFFD for what fails: one for a byte that begins no sequence (0x80 to 0xC1, 0xF5 to
0xFF) after valid text, and after it goes on; only U+FFFDs, one or more, for a cut sequence between valid texts. That two
such bytes side by side have a replacement each is the model's choice (log entry 8), and how many a cut sequence has is not
stated; that in a `DECODE` other than the default the valid text beside failing bytes is decoded, and that a stretch ends
where valid text begins, is that entry's reading of R196. -/
def Obligations.DecodeReadsUtf8AndReplaces : Prop :=
  (∀ (d : DecodeChoice) (t : Text), decodeText d (textUtf8 t) = t) ∧
  (∀ (d : DecodeChoice) (t : Text) (parts : List (List Byte × Text)) (last : List Byte),
    (∀ p ∈ parts, p.1 ≠ [] ∧ p.2 ≠ []) →
    ∃ (kept : List Text) (keptLast : Text), kept.length = parts.length ∧ (∀ k ∈ kept, k ≠ []) ∧
      (keptLast = [] ↔ last = []) ∧
      decodeText d (textUtf8 t ++ parts.flatMap (fun p => p.1 ++ textUtf8 p.2) ++ last) =
        t ++ (List.zipWith (fun k p => k ++ p.2) kept parts).flatten ++ keptLast) ∧
  (∀ (t : Text) (b : Byte) (rest : List Byte), 0x80 ≤ b.toNat ∧ b.toNat ≤ 0xC1 ∨ 0xF5 ≤ b.toNat →
    decodeText .utf8Replacement (textUtf8 t ++ b :: rest) =
      t ++ Char.ofNat 0xFFFD :: decodeText .utf8Replacement rest) ∧
  (∀ (t t' : Text) (c : Char) (cut missing : List Byte), charUtf8 c = cut ++ missing → cut ≠ [] → missing ≠ [] →
    ∃ n, 0 < n ∧
      decodeText .utf8Replacement (textUtf8 t ++ cut ++ textUtf8 t') =
        t ++ List.replicate n (Char.ofNat 0xFFFD) ++ t') ∧
  (∀ (d : DecodeChoice) (bs : List Byte), bs ≠ [] → decodeText d bs ≠ [])

/-! ## The encodings as rows of the table (log entry 3) -/

/-- A frame or message row is emitted whole, in one event, outside the settle windows: at a pc of no transition and with no
pin write in the last 50 ms; nothing else changes (R71, R72, R73, R82, R53, R243). That a channel byte outside 53..66 is
sent too, and that a frame is sent outside Configuration mode and with any fields, and a message outside Normal mode and with
any number, is the model's choice (log entries 22 and 23). -/
def Obligations.EncodedBytesAreSent : Prop :=
  ∀ s : State, s.settled = true → (∀ x ∈ s.trace, x.1.isPin = true → x.2 + 50 ≤ s.now) →
    exec .frameQv s = .next { s with trace := s.trace ++ [(.tx [0xC3#8, 0xC3#8, 0xC3#8], s.now)] } ∧
    exec .frameRc s = .next { s with trace := s.trace ++ [(.tx [0xC1#8, 0xC1#8, 0xC1#8], s.now)] } ∧
    (∀ address rate channel fixed drive wakeup fec power,
      exec (.frameWc address rate channel fixed drive wakeup fec power) s = .next { s with
        trace := s.trace ++
          [(.tx [0xC2#8, address.extractLsb' 8 8, address.extractLsb' 0 8, spedByte rate, channel,
            optionByte fixed drive wakeup fec power], s.now)] }) ∧
    (∀ n, exec (.msgHeartbeat n) s = .next { s with
      trace := s.trace ++ [(.tx ([0x72#8, 0x61#8, 0x64#8, 0x69#8, 0x6F#8, 0x20#8] ++ decBytes n), s.now)] }) ∧
    (∀ n, exec (.msgReply n) s = .next { s with
      trace := s.trace ++ [(.tx ([0x74#8, 0x77#8, 0x6F#8, 0x77#8, 0x61#8, 0x79#8, 0x20#8] ++ decBytes n), s.now)] })

/-- A frame or message row inside a settle window is refused by name: "A model or extension that adds a UART access inside
the window ... must refuse it" (R243); the window is the pcs of 10_state.md R26 and the 50 ms after any pin write
(log entries 3 and 19). -/
def Obligations.SettleWindowRefusesBytes : Prop :=
  ∀ (s : State) (i : Instr) (bs : List Byte), encode i = .bytes bs →
    (1 ≤ s.pc ∧ s.pc ≤ 4 ∨ 21 ≤ s.pc ∧ s.pc ≤ 24 ∨ ∃ p v t, (Event.pin p v, t) ∈ s.trace ∧ s.now < t + 50) →
    exec i s = .refused .settleWindow

/-- The rows of the two target patterns drive both lines, A first, each write an event, and the next 50 turns are the time
agent's, the settle delay (log entry 20); `PINS_CONFIGURATION` does so before the loop runs and is refused by name after
("must refuse it", R159). That the rows are driven at every other pc is the model's choice (log entry 24). -/
def Obligations.TargetPatternsAreDriven : Prop :=
  ∀ s : State,
    (s.params.pinWriteCanFail = false →
      exec .pinsNormal s = .next { s with
        pinA := some .zero, pinB := some .zero, agenda := List.replicate 50 .time ++ s.agenda
        trace := s.trace ++ [(.pin .a .zero, s.now), (.pin .b .zero, s.now)] } ∧
      (s.pc < 25 → exec .pinsConfiguration s = .next { s with
        pinA := some .one, pinB := some .one, agenda := List.replicate 50 .time ++ s.agenda
        trace := s.trace ++ [(.pin .a .one, s.now), (.pin .b .one, s.now)] })) ∧
    (25 ≤ s.pc → exec .pinsConfiguration s = .refused .reentry)

/-- The same rows where a pin write can fail: each of the two writes has a draw of its own, and nothing follows the one
that fails (R215; the row as one step and its settle delay are log entry 20, the pcs at which it runs log entry 24). -/
def Obligations.TargetPatternsMayFail : Prop :=
  ∀ (s : State) (i : Instr) (v : Level), s.params.pinWriteCanFail = true →
    (i = .pinsNormal ∧ v = .zero ∨ i = .pinsConfiguration ∧ v = .one ∧ s.pc < 25) →
    exec i s = .next (
      if Config.pinWriteFails s.draws then
        { s with
          run := .error, err := .pinWriteFault, draws := s.draws + 1
          trace := s.trace ++ [(.log (.logError .pinWriteFault), s.now)] }
      else if Config.pinWriteFails (s.draws + 1) then
        { s with
          pinA := some v, run := .error, err := .pinWriteFault, draws := s.draws + 2
          trace := s.trace ++ [(.pin .a v, s.now), (.log (.logError .pinWriteFault), s.now)] }
      else
        { s with
          pinA := some v, pinB := some v, draws := s.draws + 2, agenda := List.replicate 50 .time ++ s.agenda
          trace := s.trace ++ [(.pin .a v, s.now), (.pin .b v, s.now)] })

/-- A reserved mode is refused in every state, and its transition has no micro-operations (R104). That a pattern row is run
by itself, and that this row is the request for a reserved mode, are the model's (log entries 3 and 19). -/
def Obligations.ReservedModesAreRefused : Prop :=
  (∀ (s : State) (a b : Level), exec (.pinsReserved a b) s = .refused .reservedMode) ∧
  enterMacro .powerSaving = none ∧ enterMacro .sleep = none

/-! ## The machine -/

/-- The block's step is the rule of the micro-operation at its pc (R151): with an empty agenda a ready block runs it; given
its turn it runs it on what the turn leaves of the agenda; a block that is not ready lets time pass or lets its turn pass.
A running block is ready but at a wait that is armed, not due and, where it is the poll, without data (R55, R56). The
schedule is the model's choice (log entries 1 and 11). -/
def Obligations.StepRunsTheMicroOp : Prop :=
  ∀ (s : State) (i : Instr), microOpAt s.pc = some i →
    (s.agenda = [] → s.blockReady = true → step s = exec i s) ∧
    (s.agenda = [] → s.blockReady = false → step s = .next { s with now := s.now + 1 }) ∧
    (∀ rest, s.agenda = .block :: rest → s.blockReady = true → step s = exec i { s with agenda := rest }) ∧
    (∀ rest, s.agenda = .block :: rest → s.blockReady = false → step s = .next { s with agenda := rest }) ∧
    (s.blockReady = true → s.run = .run) ∧
    (s.run = .run →
      (s.blockReady = true ↔
        waitMs s.params s.pc = none ∨ s.deadline = none ∨ (∃ e, s.deadline = some e ∧ e ≤ s.now) ∨ s.pc = 27 ∧ s.rx ≠ []))

/-- The instruction a table word encodes, placed by `withFetchWord`, is what the very next step runs; a micro-operation's
word is its pc (log entry 3). -/
def Obligations.StepRunsThePlacedWord : Prop :=
  ∀ (s : State) (nbits w : Nat) (i : Instr), s.run = .run → decodeTableWord nbits w = some i →
    (nbits ≠ 0 → nbits ≠ 6 → step (s.withFetchWord nbits w) = exec i s) ∧
    (nbits = 0 ∨ nbits = 6 → step (s.withFetchWord nbits w) = exec i { s with pc := w, deadline := none })

/-- "Under these, every `Delay` and every `UartPoll` completes" (R69): in every complete execution a running block at an armed
wait later takes the completing step of that very wait, due or, at the poll, with data; and a running block at any
micro-operation later takes a step. That an execution has no reset and no probe, and that weak fairness is to the block's
step and in this form, are the model's readings of R69 (log entry 11, DEDUCED). -/
def Obligations.WaitsComplete : Prop :=
  ∀ (x : Execution) (k : Nat), x.Complete → (x.states k).run = .run →
    (∃ j, k ≤ j ∧ x.turns j = .block) ∧
    (∀ e, (x.states k).deadline = some e → waitMs (x.states k).params (x.states k).pc ≠ none →
      ∃ j, k ≤ j ∧ x.turns j = .block ∧ (x.states j).pc = (x.states k).pc ∧ (x.states j).deadline = some e ∧
        (e ≤ (x.states j).now ∨ (x.states j).pc = 27 ∧ (x.states j).rx ≠ []) ∧
        (x.states (j + 1)).pc = (x.states k).pc + 1 ∧ (x.states (j + 1)).deadline = none ∧
        ((x.states k).pc = 27 → ((x.states (j + 1)).hit = true ↔ (x.states j).rx ≠ [])))

/-- Complete executions exist (R69, R251): from every state that meets the control and history invariants, whatever its
parameters, `T_POLL_MS = 0` among them, some execution has time advance without bound and is fair to the block. What an
execution is, and the form of weak fairness, are the model's readings of R69 (log entry 11, DEDUCED). -/
def Obligations.CompleteRunsExist : Prop :=
  ∀ s : State, s.ControlInv → s.HistoryInv → ∃ x : Execution, x.states 0 = s ∧ x.Complete

/-- ERROR and STOPPED are terminal (R22, R219): whatever agent moves, no probe and no reset, the step answers and every
element of the block and its trace keeps its value. -/
def Obligations.TerminalStatesKeepTheBlock : Prop :=
  ∀ s : State, s.run ≠ .run → s.nextTurnInRun = true →
    ∃ t, step s = .next t ∧
      t = { s with now := t.now, rx := t.rx, cancel := t.cancel, agenda := t.agenda } ∧
      s.now ≤ t.now ∧ ∃ bs, t.rx = s.rx ++ bs

/-- `raise Fatal(c)` (R214), and the codes' numbers (R211; the numbers are the spec's own, its decision D37). The entry is
precise: a step in which a running block goes to ERROR, by whichever micro-operation, has the entry's effects and no other
(but for the model's own draw counter and agenda), and the block then has no step. -/
def Obligations.FatalEntry : Prop :=
  (∀ (s : State) (c : ErrCode), s.raiseFatal c =
    { s with trace := s.trace ++ [(.log (.logError c), s.now)], err := c, run := .error }) ∧
  (∀ s t : State, s.run = .run → s.nextTurnInRun = true → step s = .next t → t.run = .error →
    t.blockReady = false ∧ ∃ c, c ≠ .none ∧
      t = { s with
        trace := s.trace ++ [(.log (.logError c), s.now)], err := c, run := .error, draws := t.draws, agenda := t.agenda }) ∧
  ErrCode.number .none = 0 ∧ ErrCode.number .outOfRangeFrequency = 1 ∧ ErrCode.number .unknownAirRate = 2 ∧
  ErrCode.number .pinAssignment = 3 ∧ ErrCode.number .pinWriteFault = 4

/-- Reset with any parameters (R42, R240, R241): every element at its reset value where the pin-assignment check passes, and
ERROR with one `LogError` event where it fails; the check is R41's. The model's own draw counter and agenda are left open. -/
def Obligations.ResetValues : Prop :=
  ∀ p : Params,
    (p.pinsOk = true ↔ ∃ pa, p.pinAssignment = some pa ∧ pa.pinA ≠ pa.pinB ∧ pa.pinA ∈ p.gpioOutputs ∧ pa.pinB ∈ p.gpioOutputs) ∧
    (∃ runState err trace d turns,
      State.resetWith p = {
        pc := 0, run := runState, pinA := none, pinB := none, ind := none, cfg := none, rbuf := [], cnt := 0
        nlOwed := false, hit := false, inbound := [], deadline := none, err := err, now := 0, rx := [], trace := trace
        cancel := false, params := p, draws := d, agenda := turns } ∧
      (p.pinsOk = true → runState = .run ∧ err = .none ∧ trace = []) ∧
      (p.pinsOk = false → runState = .error ∧ err = .pinAssignment ∧ trace = [(.log (.logError .pinAssignment), 0)]))

/-- The environment's moves at the head of the agenda: bytes from the module at the buffer's tail, a millisecond of time, the
cancel input, a reset that leaves nothing of the run (R52, R69, R39, R240). The agenda and the draw counter are the
model's own (log entries 1 and 4), and so is the case `v = false` of the cancel input: R39 speaks of setting it, and that
an event may clear it again is the model's choice (log entry 12). -/
def Obligations.EnvironmentMoves : Prop :=
  ∀ (s : State) (rest : List Turn),
    (s.agenda = .time :: rest → step s = .next { s with now := s.now + 1, agenda := rest }) ∧
    (∀ t b bs, s.agenda = .env t (.moduleSend b bs) :: rest → t ≤ s.now →
      step s = .next { s with rx := s.rx ++ b :: bs, agenda := rest }) ∧
    (∀ t v, s.agenda = .env t (.setCancel v) :: rest → t ≤ s.now → step s = .next { s with cancel := v, agenda := rest }) ∧
    (∀ t p, s.agenda = .env t (.hostReset p) :: rest → t ≤ s.now →
      step s = .next { State.resetWith p with draws := s.draws, agenda := rest })

/-- The trace is appended to, never removed from or reordered, and what a step appends carries its clock value (R38); the
clock is constant during a step of the block and never goes back (R36). A reset starts a new trace. -/
def Obligations.TraceIsAppendOnly : Prop :=
  ∀ s t : State, s.nextTurnInRun = true → step s = .next t →
    (∃ es, t.trace = s.trace ++ es ∧ ∀ x ∈ es, x.2 = s.now) ∧
    (t.now = s.now ∨ t = { s with now := s.now + 1, agenda := t.agenda })

/-- Each of the block's thirteen elements is written only by the micro-operations named in its rule (R20, R21 to R35): a step
from any other pc leaves it, whatever agent moves, and the pc itself goes nowhere but on by one, to a branch target or
back to 26. The parameters are constant (R40). -/
def Obligations.ElementsHaveOnlyTheirWriters : Prop :=
  ∀ s t : State, s.nextTurnInRun = true → step s = .next t →
    (t.pc = s.pc ∨
      t.pc = (if s.pc = 28 then (if s.hit then 29 else 33) else if s.pc = 32 ∨ s.pc = 35 then 26 else s.pc + 1)) ∧
    (t.pinA = s.pinA ∨ s.pc = 1 ∨ s.pc = 21) ∧
    (t.pinB = s.pinB ∨ s.pc = 2 ∨ s.pc = 22) ∧
    (t.ind = s.ind ∨ s.pc = 3 ∨ s.pc = 23 ∨ s.pc = 30 ∨ s.pc = 33) ∧
    (t.cfg = s.cfg ∨ s.pc = 0) ∧
    (t.rbuf = s.rbuf ∨ s.pc = 7 ∨ s.pc = 11 ∨ s.pc = 15 ∨ s.pc = 19) ∧
    (t.inbound = s.inbound ∨ s.pc = 29) ∧
    (t.cnt = s.cnt ∨ (s.pc = 25 ∧ t.cnt = 0) ∨ (s.pc = 26 ∧ t.cnt = s.cnt + 1)) ∧
    (t.nlOwed = s.nlOwed ∨ s.pc = 25 ∨ s.pc = 32 ∨ s.pc = 35) ∧
    (t.hit = s.hit ∨ s.pc = 27) ∧
    (t.deadline = s.deadline ∨ waitMs s.params s.pc ≠ none) ∧
    (t.err = s.err ∨ s.pc = 0 ∨ s.pc = 1 ∨ s.pc = 2 ∨ s.pc = 21 ∨ s.pc = 22) ∧
    (t.run = s.run ∨ (t.run = .error ∧ (s.pc = 0 ∨ s.pc = 1 ∨ s.pc = 2 ∨ s.pc = 21 ∨ s.pc = 22)) ∨
      (t.run = .stopped ∧ s.pc = 26)) ∧
    t.params = s.params

/-- The receive buffer is a FIFO that only the module appends to and only `READAVAIL` empties, into the element it names
(R37, R54, R64): a poll consumes nothing. -/
def Obligations.ReceiveBufferIsFifo : Prop :=
  ∀ s t : State, s.nextTurnInRun = true → step s = .next t →
    (∃ bs, t.rx = s.rx ++ bs) ∨
    (t.rx = [] ∧ t.rbuf = s.rx ∧ (s.pc = 7 ∨ s.pc = 11 ∨ s.pc = 15 ∨ s.pc = 19)) ∨
    (t.rx = [] ∧ t.inbound = s.rx ∧ s.pc = 29)

/-- No UART access falls inside a mode transition (R110, R243): from pc 1 to 4 and 21 to 24 a step neither transmits nor takes
a byte from the buffer, whatever agent moves, the model's probe (log entry 3) among them. -/
def Obligations.NoUartInTransitions : Prop :=
  ∀ s t : State, (1 ≤ s.pc ∧ s.pc ≤ 4 ∨ 21 ≤ s.pc ∧ s.pc ≤ 24) → s.nextTurnIsReset = false → step s = .next t →
    txWrites t.trace = txWrites s.trace ∧ ∃ bs, t.rx = s.rx ++ bs

/-- What the pc and the latches say: the sequencer state, the operating mode, settledness (R23, R25, R26), and the
indicator's kind and realisation (R27, R40), unknown before it is first written. -/
def Obligations.ObservedModes : Prop :=
  (∀ s : State, s.run = .run →
    (s.sequencerState = some .idle ↔ s.pc = 0) ∧
    (s.sequencerState = some .enterConfigMode ↔ 1 ≤ s.pc ∧ s.pc ≤ 4) ∧
    (s.sequencerState = some .queryVersion ↔ 5 ≤ s.pc ∧ s.pc ≤ 8) ∧
    (s.sequencerState = some .readOldConfig ↔ 9 ≤ s.pc ∧ s.pc ≤ 12) ∧
    (s.sequencerState = some .writeNewConfig ↔ 13 ≤ s.pc ∧ s.pc ≤ 16) ∧
    (s.sequencerState = some .readBackConfig ↔ 17 ≤ s.pc ∧ s.pc ≤ 20) ∧
    (s.sequencerState = some .enterNormalMode ↔ 21 ≤ s.pc ∧ s.pc ≤ 24) ∧
    (s.sequencerState = some .done ↔ s.pc = 25) ∧
    (s.sequencerState = some .loop ↔ 26 ≤ s.pc ∧ s.pc ≤ 35)) ∧
  (∀ s : State,
    (s.mode = .normal ↔ s.pinA = some .zero ∧ s.pinB = some .zero) ∧
    (s.mode = .configuration ↔ s.pinA = some .one ∧ s.pinB = some .one) ∧
    (s.mode = .reserved ↔ s.pinA = some .zero ∧ s.pinB = some .one ∨ s.pinA = some .one ∧ s.pinB = some .zero) ∧
    (s.mode = .unknown ↔ s.pinA = none ∨ s.pinB = none) ∧
    (s.settled = false ↔ s.pc ∈ [1, 2, 3, 4, 21, 22, 23, 24])) ∧
  (∀ p : Params,
    (p.indicatorKind = .pixel ↔ ∃ pa pin, p.pinAssignment = some pa ∧ pa.indPin = some pin ∧ pa.indIsPixel = true) ∧
    (p.indicatorKind = .led ↔ ∃ pa pin, p.pinAssignment = some pa ∧ pa.indPin = some pin ∧ pa.indIsPixel = false) ∧
    (p.indicatorKind = .none ↔ ∀ pa, p.pinAssignment = some pa → pa.indPin = none)) ∧
  (∀ s : State,
    (s.params.indicatorKind = .none → s.indicatorOutput = .nothing) ∧
    (s.params.indicatorKind = .pixel ∨ s.params.indicatorKind = .led → s.ind = none → s.indicatorOutput = .unknown) ∧
    (s.params.indicatorKind = .pixel → s.ind = some .on → s.indicatorOutput = .colour s.params.pixelRgb) ∧
    (s.params.indicatorKind = .pixel → s.ind = some .off → s.indicatorOutput = .dark) ∧
    (s.params.indicatorKind = .led → s.ind = some .on → s.indicatorOutput = .pinHigh) ∧
    (s.params.indicatorKind = .led → s.ind = some .off → s.indicatorOutput = .pinLow))

/-! ## Invariants -/

/-- Reset with any parameters meets every invariant of Safety.lean. -/
def Obligations.ResetIsSafe : Prop := ∀ p : Params, (State.resetWith p).Safe

/-- Every step keeps the control invariant: the pc stays in the table, ERROR and its code go together, a code stands at the
pc that raises it, a wait is armed only at a wait and ends within its length, and the branch and the read find what the
poll found (R21, R22, R34, R35, R187, R211, R218). -/
def Obligations.StepKeepsControl : Prop := ∀ s t : State, s.ControlInv → step s = .next t → t.ControlInv

/-- Every step keeps the lines and the indicator in step with the pc, and from a completed tick to the next poll's completion
the indicator is On where the tick had data and Off where it had none (R100, R101, R103, R109, R198). -/
def Obligations.StepKeepsLines : Prop := ∀ s t : State, s.LinesInv → step s = .next t → t.LinesInv

/-- Every step keeps the configuration and the transmit history: the four frames in order, then one message a tick carrying
1, 2, 3, ... (R28, R161, R182, R198). -/
def Obligations.StepKeepsHistory : Prop := ∀ s t : State, s.HistoryInv → step s = .next t → t.HistoryInv

/-- Every step keeps the least clock value of its pc (R160): the loop is reached no earlier than 300 ms after reset. -/
def Obligations.StepKeepsTiming : Prop := ∀ s t : State, s.TimingInv → step s = .next t → t.TimingInv

/-- Every step keeps the two gates: every transmission stands at least 50 ms after every earlier pin write, and every
logged response at least 50 ms after every earlier transmission (R67, R109, R243, R244). -/
def Obligations.StepKeepsGates : Prop := ∀ s t : State, s.GateInv → step s = .next t → t.GateInv

/-- The block never stops in a way the spec does not know: from a state that meets the control and history invariants every
step answers a next state, whatever the agents do (R216, R217, R251). -/
def Obligations.SafeStatesAlwaysStep : Prop :=
  ∀ s : State, s.ControlInv → s.HistoryInv → ∃ t, step s = .next t

/-- In every state that meets the invariants, the loop runs in Normal mode with both lines low, and from the first frame to
the last response log the lines are both high: the block transmits in no other mode (R79, R109). -/
def Obligations.BlockTransmitsInItsMode : Prop :=
  ∀ s t : State, s.ControlInv → s.LinesInv → step s = .next t → s.nextTurnInRun = true →
    txWrites t.trace ≠ txWrites s.trace →
    (s.mode = .configuration ∧ ∃ bs, txWrites t.trace = txWrites s.trace ++ [bs] ∧
      (bs.head? = some 0xC3#8 ∨ bs.head? = some 0xC1#8 ∨ bs.head? = some 0xC2#8)) ∨
    (s.mode = .normal ∧ ∃ bs, txWrites t.trace = txWrites s.trace ++ [bs] ∧
      (bs.head? = some 0x72#8 ∨ bs.head? = some 0x74#8))
end

