-- ==== Sys2Proof/Laws/Decode.lean ====
section
/-! SUPPORT. What the digit and field codes of the encodings give back when they are read: one lemma each. -/

namespace Sys2Proof

/-! ## Field codes -/

@[simp] theorem AirRate.ofCode_code (r : AirRate) : AirRate.ofCode r.code = some r := by cases r <;> rfl

@[simp] theorem PowerLevel.ofCode_code (p : PowerLevel) : PowerLevel.ofCode p.code = p := by cases p <;> rfl

@[simp] theorem DriveMode.ofBit_isPushPull (d : DriveMode) : DriveMode.ofBit d.isPushPull = d := by cases d <;> rfl

@[simp] theorem hi8_append_lo8 (v : BitVec 16) : (hi8 v ++ lo8 v : BitVec 16) = v := by
  apply BitVec.eq_of_getLsbD_eq
  intro i hi
  simp only [hi8, lo8, BitVec.getLsbD_append, BitVec.getLsbD_extractLsb']
  by_cases h : i < 8
  · simp [h]
  · have h8 : i - 8 < 8 := by omega
    simp [h, h8, show 8 + (i - 8) = i by omega]

@[simp] theorem spedByte_upper (r : AirRate) : (spedByte r).extractLsb' 3 5 = spedUpper := by cases r <;> rfl

@[simp] theorem spedByte_code (r : AirRate) : (spedByte r).extractLsb' 0 3 = r.code := by cases r <;> rfl

/-- Every field of the option byte, read back (30_encoding.md R78). -/
theorem optionByte_fields (x : Bool) (d : DriveMode) (w : BitVec 3) (f : Bool) (p : PowerLevel) :
    (optionByte x d w f p).getLsbD 7 = x ∧ (optionByte x d w f p).getLsbD 6 = d.isPushPull ∧
    (optionByte x d w f p).extractLsb' 3 3 = w ∧ (optionByte x d w f p).getLsbD 2 = f ∧
    (optionByte x d w f p).extractLsb' 0 2 = p.code := by
  cases x <;> cases d <;> cases f <;> cases p <;> revert w <;> decide

/-! ## Digits -/

theorem digitValue_digitByte {d : Nat} (h : d < 10) : digitValue (digitByte d) = some d := by
  have : (digitByte d).toNat = 0x30 + d := by simp [digitByte]; omega
  simp only [digitValue, this]
  rw [if_pos (by omega)]
  simp

theorem decDigits_lt_ten (fuel n : Nat) : ∀ d ∈ decDigits fuel n, d < 10 := by
  induction fuel generalizing n with
  | zero => intro d hd; simp [decDigits] at hd; omega
  | succ fuel ih =>
    intro d hd
    simp only [decDigits] at hd
    split at hd
    · simp at hd; omega
    · rcases List.mem_append.mp hd with h | h
      · exact ih _ d h
      · simp at h; omega

theorem decDigits_ne_nil (fuel n : Nat) : decDigits fuel n ≠ [] := by
  cases fuel with
  | zero => simp [decDigits]
  | succ fuel => simp only [decDigits]; split <;> simp

theorem digitsValue_append (ds : List Nat) (d : Nat) : digitsValue (ds ++ [d]) = 10 * digitsValue ds + d := by
  simp [digitsValue, List.foldl_append]

theorem digitsValue_decDigits (fuel n : Nat) (h : n ≤ fuel) : digitsValue (decDigits fuel n) = n := by
  induction fuel generalizing n with
  | zero => obtain rfl : n = 0 := by omega
            rfl
  | succ fuel ih =>
    simp only [decDigits]
    split
    · simp [digitsValue]
    · rw [digitsValue_append, ih _ (by omega)]; omega

/-- The first digit is 0 only in the one digit of 0 (00_scope.md R8: no leading zeros). -/
theorem decDigits_head (fuel n : Nat) (h : n ≤ fuel) (hn : 0 < n) :
    ∃ d ds, decDigits fuel n = d :: ds ∧ 0 < d := by
  induction fuel generalizing n with
  | zero => omega
  | succ fuel ih =>
    simp only [decDigits]
    split
    · exact ⟨n, [], rfl, hn⟩
    · obtain ⟨d, ds, he, hd⟩ := ih (n / 10) (by omega) (by omega)
      exact ⟨d, ds ++ [n % 10], by simp [he], hd⟩

theorem takeDigits_stop {rest : List Byte} (h : ∀ b tl, rest = b :: tl → digitValue b = none) :
    takeDigits rest = ([], rest) := by
  cases rest with
  | nil => rfl
  | cons b tl => simp only [takeDigits, h b tl rfl]

theorem takeDigits_digits (ds : List Nat) (hds : ∀ d ∈ ds, d < 10) {rest : List Byte}
    (h : ∀ b tl, rest = b :: tl → digitValue b = none) :
    takeDigits (ds.map digitByte ++ rest) = (ds, rest) := by
  induction ds with
  | nil => exact takeDigits_stop h
  | cons d ds ih =>
    have hd := digitValue_digitByte (hds d (by simp))
    simp only [List.map_cons, List.cons_append, takeDigits, hd, ih fun x hx => hds x (by simp [hx])]

/-- A number in decimal, followed by no digit, is read back (30_encoding.md R82). -/
theorem decodeNumber_decBytes (mk : Nat → Instr) (n : Nat) {rest : List Byte}
    (h : ∀ b tl, rest = b :: tl → digitValue b = none) :
    decodeNumber mk (decBytes n ++ rest) = .ok (mk n, rest) := by
  have ht := takeDigits_digits (decDigits n n) (decDigits_lt_ten n n) h
  have hv := digitsValue_decDigits n n (Nat.le_refl n)
  simp only [decodeNumber, decBytes, ht]
  rcases Nat.eq_zero_or_pos n with rfl | hn
  · rfl
  · obtain ⟨d, ds, he, hd⟩ := decDigits_head n n (Nat.le_refl n) hn
    rw [he] at hv ⊢
    obtain ⟨k, rfl⟩ : ∃ k, d = k + 1 := ⟨d - 1, by omega⟩
    simp [hv]

@[simp] theorem stripWord_append (w rest : List Byte) : stripWord w (w ++ rest) = some rest := by
  induction w with
  | nil => cases rest <;> rfl
  | cons b w ih => simp [stripWord, ih]

/-! ## Table words -/

theorem decodeNumber_isMicroOp {mk : Nat → Instr} (hmk : ∀ n, (mk n).isMicroOp = false) {bs rest : List Byte} {i : Instr}
    (h : decodeNumber mk bs = .ok (i, rest)) : i.isMicroOp = false := by
  simp only [decodeNumber] at h
  split at h <;> cases h
  exact hmk _

/-- The reader of the transmit stream answers frames and messages alone. -/
theorem decodeBytes_isMicroOp {bs rest : List Byte} {i : Instr} (h : decodeBytes bs = .ok (i, rest)) :
    i.isMicroOp = false := by
  simp only [decodeBytes, decodeTriple, decodeWriteConfig, decodeMessage] at h
  split at h
  · cases h
  · repeat' split at h
    all_goals first
      | (cases h; rfl)
      | exact decodeNumber_isMicroOp (fun _ => rfl) h
      | cases h

/-- A table word that is no pc decodes to a row that is no micro-operation. -/
theorem decodeTableWord_isMicroOp {nbits w : Nat} {i : Instr} (h0 : nbits ≠ 0) (h6 : nbits ≠ 6)
    (h : decodeTableWord nbits w = some i) : i.isMicroOp = false := by
  have bytes : ∀ bs, decode (.bytes bs) = .ok i → i.isMicroOp = false := by
    intro bs hb
    simp only [decode] at hb
    split at hb
    · next hd => cases hb; exact decodeBytes_isMicroOp hd
    · cases hb
    · cases hb
  have pins : ∀ a b, (pinPattern a b).isMicroOp = false := by intro a b; cases a <;> cases b <;> rfl
  simp only [decodeTableWord] at h
  split at h
  · next e he =>
    split at h
    · next j hj =>
      cases h
      simp only [encodingOfTableWord, h0, h6, or_self, if_false] at he
      repeat' split at he
      all_goals first
        | (cases he; exact bytes _ hj)
        | (cases he; simp only [decode, Except.ok.injEq] at hj; rw [← hj]; exact pins _ _)
        | cases he
    · cases h
  · cases h

end Sys2Proof
end

