-- ==== Sys2Proof/Laws/State.lean ====
section
/-! SUPPORT. One lemma per field of the state and per update, true by unfolding, so that no proof unfolds a record update;
and the operations that are made of others, rewritten to them. -/

namespace Sys2Proof.Machine

variable (s : State)

/-! ### goto -/

@[simp] theorem State.goto_pc (n : Nat) : (s.goto n).pc = n := rfl
@[simp] theorem State.goto_run (n : Nat) : (s.goto n).run = s.run := rfl
@[simp] theorem State.goto_pinA (n : Nat) : (s.goto n).pinA = s.pinA := rfl
@[simp] theorem State.goto_pinB (n : Nat) : (s.goto n).pinB = s.pinB := rfl
@[simp] theorem State.goto_ind (n : Nat) : (s.goto n).ind = s.ind := rfl
@[simp] theorem State.goto_cfg (n : Nat) : (s.goto n).cfg = s.cfg := rfl
@[simp] theorem State.goto_rbuf (n : Nat) : (s.goto n).rbuf = s.rbuf := rfl
@[simp] theorem State.goto_cnt (n : Nat) : (s.goto n).cnt = s.cnt := rfl
@[simp] theorem State.goto_nlOwed (n : Nat) : (s.goto n).nlOwed = s.nlOwed := rfl
@[simp] theorem State.goto_hit (n : Nat) : (s.goto n).hit = s.hit := rfl
@[simp] theorem State.goto_inbound (n : Nat) : (s.goto n).inbound = s.inbound := rfl
@[simp] theorem State.goto_deadline (n : Nat) : (s.goto n).deadline = s.deadline := rfl
@[simp] theorem State.goto_err (n : Nat) : (s.goto n).err = s.err := rfl
@[simp] theorem State.goto_now (n : Nat) : (s.goto n).now = s.now := rfl
@[simp] theorem State.goto_rx (n : Nat) : (s.goto n).rx = s.rx := rfl
@[simp] theorem State.goto_trace (n : Nat) : (s.goto n).trace = s.trace := rfl
@[simp] theorem State.goto_cancel (n : Nat) : (s.goto n).cancel = s.cancel := rfl
@[simp] theorem State.goto_params (n : Nat) : (s.goto n).params = s.params := rfl
@[simp] theorem State.goto_draws (n : Nat) : (s.goto n).draws = s.draws := rfl
@[simp] theorem State.goto_agenda (n : Nat) : (s.goto n).agenda = s.agenda := rfl

/-! ### emit -/

@[simp] theorem State.emit_pc (e : Event) : (s.emit e).pc = s.pc := rfl
@[simp] theorem State.emit_run (e : Event) : (s.emit e).run = s.run := rfl
@[simp] theorem State.emit_pinA (e : Event) : (s.emit e).pinA = s.pinA := rfl
@[simp] theorem State.emit_pinB (e : Event) : (s.emit e).pinB = s.pinB := rfl
@[simp] theorem State.emit_ind (e : Event) : (s.emit e).ind = s.ind := rfl
@[simp] theorem State.emit_cfg (e : Event) : (s.emit e).cfg = s.cfg := rfl
@[simp] theorem State.emit_rbuf (e : Event) : (s.emit e).rbuf = s.rbuf := rfl
@[simp] theorem State.emit_cnt (e : Event) : (s.emit e).cnt = s.cnt := rfl
@[simp] theorem State.emit_nlOwed (e : Event) : (s.emit e).nlOwed = s.nlOwed := rfl
@[simp] theorem State.emit_hit (e : Event) : (s.emit e).hit = s.hit := rfl
@[simp] theorem State.emit_inbound (e : Event) : (s.emit e).inbound = s.inbound := rfl
@[simp] theorem State.emit_deadline (e : Event) : (s.emit e).deadline = s.deadline := rfl
@[simp] theorem State.emit_err (e : Event) : (s.emit e).err = s.err := rfl
@[simp] theorem State.emit_now (e : Event) : (s.emit e).now = s.now := rfl
@[simp] theorem State.emit_rx (e : Event) : (s.emit e).rx = s.rx := rfl
@[simp] theorem State.emit_trace (e : Event) : (s.emit e).trace = s.trace ++ [(e, s.now)] := rfl
@[simp] theorem State.emit_cancel (e : Event) : (s.emit e).cancel = s.cancel := rfl
@[simp] theorem State.emit_params (e : Event) : (s.emit e).params = s.params := rfl
@[simp] theorem State.emit_draws (e : Event) : (s.emit e).draws = s.draws := rfl
@[simp] theorem State.emit_agenda (e : Event) : (s.emit e).agenda = s.agenda := rfl

/-! ### clearRx -/

@[simp] theorem State.clearRx_pc : s.clearRx.pc = s.pc := rfl
@[simp] theorem State.clearRx_run : s.clearRx.run = s.run := rfl
@[simp] theorem State.clearRx_pinA : s.clearRx.pinA = s.pinA := rfl
@[simp] theorem State.clearRx_pinB : s.clearRx.pinB = s.pinB := rfl
@[simp] theorem State.clearRx_ind : s.clearRx.ind = s.ind := rfl
@[simp] theorem State.clearRx_cfg : s.clearRx.cfg = s.cfg := rfl
@[simp] theorem State.clearRx_rbuf : s.clearRx.rbuf = s.rbuf := rfl
@[simp] theorem State.clearRx_cnt : s.clearRx.cnt = s.cnt := rfl
@[simp] theorem State.clearRx_nlOwed : s.clearRx.nlOwed = s.nlOwed := rfl
@[simp] theorem State.clearRx_hit : s.clearRx.hit = s.hit := rfl
@[simp] theorem State.clearRx_inbound : s.clearRx.inbound = s.inbound := rfl
@[simp] theorem State.clearRx_deadline : s.clearRx.deadline = s.deadline := rfl
@[simp] theorem State.clearRx_err : s.clearRx.err = s.err := rfl
@[simp] theorem State.clearRx_now : s.clearRx.now = s.now := rfl
@[simp] theorem State.clearRx_rx : s.clearRx.rx = [] := rfl
@[simp] theorem State.clearRx_trace : s.clearRx.trace = s.trace := rfl
@[simp] theorem State.clearRx_cancel : s.clearRx.cancel = s.cancel := rfl
@[simp] theorem State.clearRx_params : s.clearRx.params = s.params := rfl
@[simp] theorem State.clearRx_draws : s.clearRx.draws = s.draws := rfl
@[simp] theorem State.clearRx_agenda : s.clearRx.agenda = s.agenda := rfl

/-! ### readToRbuf -/

@[simp] theorem State.readToRbuf_pc : s.readToRbuf.pc = s.pc := rfl
@[simp] theorem State.readToRbuf_run : s.readToRbuf.run = s.run := rfl
@[simp] theorem State.readToRbuf_pinA : s.readToRbuf.pinA = s.pinA := rfl
@[simp] theorem State.readToRbuf_pinB : s.readToRbuf.pinB = s.pinB := rfl
@[simp] theorem State.readToRbuf_ind : s.readToRbuf.ind = s.ind := rfl
@[simp] theorem State.readToRbuf_cfg : s.readToRbuf.cfg = s.cfg := rfl
@[simp] theorem State.readToRbuf_rbuf : s.readToRbuf.rbuf = s.rx := rfl
@[simp] theorem State.readToRbuf_cnt : s.readToRbuf.cnt = s.cnt := rfl
@[simp] theorem State.readToRbuf_nlOwed : s.readToRbuf.nlOwed = s.nlOwed := rfl
@[simp] theorem State.readToRbuf_hit : s.readToRbuf.hit = s.hit := rfl
@[simp] theorem State.readToRbuf_inbound : s.readToRbuf.inbound = s.inbound := rfl
@[simp] theorem State.readToRbuf_deadline : s.readToRbuf.deadline = s.deadline := rfl
@[simp] theorem State.readToRbuf_err : s.readToRbuf.err = s.err := rfl
@[simp] theorem State.readToRbuf_now : s.readToRbuf.now = s.now := rfl
@[simp] theorem State.readToRbuf_rx : s.readToRbuf.rx = [] := rfl
@[simp] theorem State.readToRbuf_trace : s.readToRbuf.trace = s.trace := rfl
@[simp] theorem State.readToRbuf_cancel : s.readToRbuf.cancel = s.cancel := rfl
@[simp] theorem State.readToRbuf_params : s.readToRbuf.params = s.params := rfl
@[simp] theorem State.readToRbuf_draws : s.readToRbuf.draws = s.draws := rfl
@[simp] theorem State.readToRbuf_agenda : s.readToRbuf.agenda = s.agenda := rfl

/-! ### readToInbound -/

@[simp] theorem State.readToInbound_pc : s.readToInbound.pc = s.pc := rfl
@[simp] theorem State.readToInbound_run : s.readToInbound.run = s.run := rfl
@[simp] theorem State.readToInbound_pinA : s.readToInbound.pinA = s.pinA := rfl
@[simp] theorem State.readToInbound_pinB : s.readToInbound.pinB = s.pinB := rfl
@[simp] theorem State.readToInbound_ind : s.readToInbound.ind = s.ind := rfl
@[simp] theorem State.readToInbound_cfg : s.readToInbound.cfg = s.cfg := rfl
@[simp] theorem State.readToInbound_rbuf : s.readToInbound.rbuf = s.rbuf := rfl
@[simp] theorem State.readToInbound_cnt : s.readToInbound.cnt = s.cnt := rfl
@[simp] theorem State.readToInbound_nlOwed : s.readToInbound.nlOwed = s.nlOwed := rfl
@[simp] theorem State.readToInbound_hit : s.readToInbound.hit = s.hit := rfl
@[simp] theorem State.readToInbound_inbound : s.readToInbound.inbound = s.rx := rfl
@[simp] theorem State.readToInbound_deadline : s.readToInbound.deadline = s.deadline := rfl
@[simp] theorem State.readToInbound_err : s.readToInbound.err = s.err := rfl
@[simp] theorem State.readToInbound_now : s.readToInbound.now = s.now := rfl
@[simp] theorem State.readToInbound_rx : s.readToInbound.rx = [] := rfl
@[simp] theorem State.readToInbound_trace : s.readToInbound.trace = s.trace := rfl
@[simp] theorem State.readToInbound_cancel : s.readToInbound.cancel = s.cancel := rfl
@[simp] theorem State.readToInbound_params : s.readToInbound.params = s.params := rfl
@[simp] theorem State.readToInbound_draws : s.readToInbound.draws = s.draws := rfl
@[simp] theorem State.readToInbound_agenda : s.readToInbound.agenda = s.agenda := rfl

/-! ### indicatorSet -/

@[simp] theorem State.indicatorSet_pc (v : OnOff) : (s.indicatorSet v).pc = s.pc := rfl
@[simp] theorem State.indicatorSet_run (v : OnOff) : (s.indicatorSet v).run = s.run := rfl
@[simp] theorem State.indicatorSet_pinA (v : OnOff) : (s.indicatorSet v).pinA = s.pinA := rfl
@[simp] theorem State.indicatorSet_pinB (v : OnOff) : (s.indicatorSet v).pinB = s.pinB := rfl
@[simp] theorem State.indicatorSet_ind (v : OnOff) : (s.indicatorSet v).ind = some v := rfl
@[simp] theorem State.indicatorSet_cfg (v : OnOff) : (s.indicatorSet v).cfg = s.cfg := rfl
@[simp] theorem State.indicatorSet_rbuf (v : OnOff) : (s.indicatorSet v).rbuf = s.rbuf := rfl
@[simp] theorem State.indicatorSet_cnt (v : OnOff) : (s.indicatorSet v).cnt = s.cnt := rfl
@[simp] theorem State.indicatorSet_nlOwed (v : OnOff) : (s.indicatorSet v).nlOwed = s.nlOwed := rfl
@[simp] theorem State.indicatorSet_hit (v : OnOff) : (s.indicatorSet v).hit = s.hit := rfl
@[simp] theorem State.indicatorSet_inbound (v : OnOff) : (s.indicatorSet v).inbound = s.inbound := rfl
@[simp] theorem State.indicatorSet_deadline (v : OnOff) : (s.indicatorSet v).deadline = s.deadline := rfl
@[simp] theorem State.indicatorSet_err (v : OnOff) : (s.indicatorSet v).err = s.err := rfl
@[simp] theorem State.indicatorSet_now (v : OnOff) : (s.indicatorSet v).now = s.now := rfl
@[simp] theorem State.indicatorSet_rx (v : OnOff) : (s.indicatorSet v).rx = s.rx := rfl
@[simp] theorem State.indicatorSet_trace (v : OnOff) : (s.indicatorSet v).trace = s.trace ++ [(.ind v, s.now)] := rfl
@[simp] theorem State.indicatorSet_cancel (v : OnOff) : (s.indicatorSet v).cancel = s.cancel := rfl
@[simp] theorem State.indicatorSet_params (v : OnOff) : (s.indicatorSet v).params = s.params := rfl
@[simp] theorem State.indicatorSet_draws (v : OnOff) : (s.indicatorSet v).draws = s.draws := rfl
@[simp] theorem State.indicatorSet_agenda (v : OnOff) : (s.indicatorSet v).agenda = s.agenda := rfl

/-! ### arm -/

@[simp] theorem State.arm_pc (d : Nat) : (s.arm d).pc = s.pc := rfl
@[simp] theorem State.arm_run (d : Nat) : (s.arm d).run = s.run := rfl
@[simp] theorem State.arm_pinA (d : Nat) : (s.arm d).pinA = s.pinA := rfl
@[simp] theorem State.arm_pinB (d : Nat) : (s.arm d).pinB = s.pinB := rfl
@[simp] theorem State.arm_ind (d : Nat) : (s.arm d).ind = s.ind := rfl
@[simp] theorem State.arm_cfg (d : Nat) : (s.arm d).cfg = s.cfg := rfl
@[simp] theorem State.arm_rbuf (d : Nat) : (s.arm d).rbuf = s.rbuf := rfl
@[simp] theorem State.arm_cnt (d : Nat) : (s.arm d).cnt = s.cnt := rfl
@[simp] theorem State.arm_nlOwed (d : Nat) : (s.arm d).nlOwed = s.nlOwed := rfl
@[simp] theorem State.arm_hit (d : Nat) : (s.arm d).hit = s.hit := rfl
@[simp] theorem State.arm_inbound (d : Nat) : (s.arm d).inbound = s.inbound := rfl
@[simp] theorem State.arm_deadline (d : Nat) : (s.arm d).deadline = some (s.now + d) := rfl
@[simp] theorem State.arm_err (d : Nat) : (s.arm d).err = s.err := rfl
@[simp] theorem State.arm_now (d : Nat) : (s.arm d).now = s.now := rfl
@[simp] theorem State.arm_rx (d : Nat) : (s.arm d).rx = s.rx := rfl
@[simp] theorem State.arm_trace (d : Nat) : (s.arm d).trace = s.trace := rfl
@[simp] theorem State.arm_cancel (d : Nat) : (s.arm d).cancel = s.cancel := rfl
@[simp] theorem State.arm_params (d : Nat) : (s.arm d).params = s.params := rfl
@[simp] theorem State.arm_draws (d : Nat) : (s.arm d).draws = s.draws := rfl
@[simp] theorem State.arm_agenda (d : Nat) : (s.arm d).agenda = s.agenda := rfl

/-! ### disarm -/

@[simp] theorem State.disarm_pc : s.disarm.pc = s.pc := rfl
@[simp] theorem State.disarm_run : s.disarm.run = s.run := rfl
@[simp] theorem State.disarm_pinA : s.disarm.pinA = s.pinA := rfl
@[simp] theorem State.disarm_pinB : s.disarm.pinB = s.pinB := rfl
@[simp] theorem State.disarm_ind : s.disarm.ind = s.ind := rfl
@[simp] theorem State.disarm_cfg : s.disarm.cfg = s.cfg := rfl
@[simp] theorem State.disarm_rbuf : s.disarm.rbuf = s.rbuf := rfl
@[simp] theorem State.disarm_cnt : s.disarm.cnt = s.cnt := rfl
@[simp] theorem State.disarm_nlOwed : s.disarm.nlOwed = s.nlOwed := rfl
@[simp] theorem State.disarm_hit : s.disarm.hit = s.hit := rfl
@[simp] theorem State.disarm_inbound : s.disarm.inbound = s.inbound := rfl
@[simp] theorem State.disarm_deadline : s.disarm.deadline = none := rfl
@[simp] theorem State.disarm_err : s.disarm.err = s.err := rfl
@[simp] theorem State.disarm_now : s.disarm.now = s.now := rfl
@[simp] theorem State.disarm_rx : s.disarm.rx = s.rx := rfl
@[simp] theorem State.disarm_trace : s.disarm.trace = s.trace := rfl
@[simp] theorem State.disarm_cancel : s.disarm.cancel = s.cancel := rfl
@[simp] theorem State.disarm_params : s.disarm.params = s.params := rfl
@[simp] theorem State.disarm_draws : s.disarm.draws = s.draws := rfl
@[simp] theorem State.disarm_agenda : s.disarm.agenda = s.agenda := rfl

/-! ### raiseFatal -/

@[simp] theorem State.raiseFatal_pc (c : ErrCode) : (s.raiseFatal c).pc = s.pc := rfl
@[simp] theorem State.raiseFatal_run (c : ErrCode) : (s.raiseFatal c).run = .error := rfl
@[simp] theorem State.raiseFatal_pinA (c : ErrCode) : (s.raiseFatal c).pinA = s.pinA := rfl
@[simp] theorem State.raiseFatal_pinB (c : ErrCode) : (s.raiseFatal c).pinB = s.pinB := rfl
@[simp] theorem State.raiseFatal_ind (c : ErrCode) : (s.raiseFatal c).ind = s.ind := rfl
@[simp] theorem State.raiseFatal_cfg (c : ErrCode) : (s.raiseFatal c).cfg = s.cfg := rfl
@[simp] theorem State.raiseFatal_rbuf (c : ErrCode) : (s.raiseFatal c).rbuf = s.rbuf := rfl
@[simp] theorem State.raiseFatal_cnt (c : ErrCode) : (s.raiseFatal c).cnt = s.cnt := rfl
@[simp] theorem State.raiseFatal_nlOwed (c : ErrCode) : (s.raiseFatal c).nlOwed = s.nlOwed := rfl
@[simp] theorem State.raiseFatal_hit (c : ErrCode) : (s.raiseFatal c).hit = s.hit := rfl
@[simp] theorem State.raiseFatal_inbound (c : ErrCode) : (s.raiseFatal c).inbound = s.inbound := rfl
@[simp] theorem State.raiseFatal_deadline (c : ErrCode) : (s.raiseFatal c).deadline = s.deadline := rfl
@[simp] theorem State.raiseFatal_err (c : ErrCode) : (s.raiseFatal c).err = c := rfl
@[simp] theorem State.raiseFatal_now (c : ErrCode) : (s.raiseFatal c).now = s.now := rfl
@[simp] theorem State.raiseFatal_rx (c : ErrCode) : (s.raiseFatal c).rx = s.rx := rfl
@[simp] theorem State.raiseFatal_trace (c : ErrCode) : (s.raiseFatal c).trace = s.trace ++ [(.log (.logError c), s.now)] := rfl
@[simp] theorem State.raiseFatal_cancel (c : ErrCode) : (s.raiseFatal c).cancel = s.cancel := rfl
@[simp] theorem State.raiseFatal_params (c : ErrCode) : (s.raiseFatal c).params = s.params := rfl
@[simp] theorem State.raiseFatal_draws (c : ErrCode) : (s.raiseFatal c).draws = s.draws := rfl
@[simp] theorem State.raiseFatal_agenda (c : ErrCode) : (s.raiseFatal c).agenda = s.agenda := rfl

/-! ### drawn -/

@[simp] theorem State.drawn_pc : s.drawn.pc = s.pc := rfl
@[simp] theorem State.drawn_run : s.drawn.run = s.run := rfl
@[simp] theorem State.drawn_pinA : s.drawn.pinA = s.pinA := rfl
@[simp] theorem State.drawn_pinB : s.drawn.pinB = s.pinB := rfl
@[simp] theorem State.drawn_ind : s.drawn.ind = s.ind := rfl
@[simp] theorem State.drawn_cfg : s.drawn.cfg = s.cfg := rfl
@[simp] theorem State.drawn_rbuf : s.drawn.rbuf = s.rbuf := rfl
@[simp] theorem State.drawn_cnt : s.drawn.cnt = s.cnt := rfl
@[simp] theorem State.drawn_nlOwed : s.drawn.nlOwed = s.nlOwed := rfl
@[simp] theorem State.drawn_hit : s.drawn.hit = s.hit := rfl
@[simp] theorem State.drawn_inbound : s.drawn.inbound = s.inbound := rfl
@[simp] theorem State.drawn_deadline : s.drawn.deadline = s.deadline := rfl
@[simp] theorem State.drawn_err : s.drawn.err = s.err := rfl
@[simp] theorem State.drawn_now : s.drawn.now = s.now := rfl
@[simp] theorem State.drawn_rx : s.drawn.rx = s.rx := rfl
@[simp] theorem State.drawn_trace : s.drawn.trace = s.trace := rfl
@[simp] theorem State.drawn_cancel : s.drawn.cancel = s.cancel := rfl
@[simp] theorem State.drawn_params : s.drawn.params = s.params := rfl
@[simp] theorem State.drawn_draws : s.drawn.draws = s.draws + 1 := rfl
@[simp] theorem State.drawn_agenda : s.drawn.agenda = s.agenda := rfl

/-! ### timeStep -/

@[simp] theorem State.timeStep_pc : s.timeStep.pc = s.pc := rfl
@[simp] theorem State.timeStep_run : s.timeStep.run = s.run := rfl
@[simp] theorem State.timeStep_pinA : s.timeStep.pinA = s.pinA := rfl
@[simp] theorem State.timeStep_pinB : s.timeStep.pinB = s.pinB := rfl
@[simp] theorem State.timeStep_ind : s.timeStep.ind = s.ind := rfl
@[simp] theorem State.timeStep_cfg : s.timeStep.cfg = s.cfg := rfl
@[simp] theorem State.timeStep_rbuf : s.timeStep.rbuf = s.rbuf := rfl
@[simp] theorem State.timeStep_cnt : s.timeStep.cnt = s.cnt := rfl
@[simp] theorem State.timeStep_nlOwed : s.timeStep.nlOwed = s.nlOwed := rfl
@[simp] theorem State.timeStep_hit : s.timeStep.hit = s.hit := rfl
@[simp] theorem State.timeStep_inbound : s.timeStep.inbound = s.inbound := rfl
@[simp] theorem State.timeStep_deadline : s.timeStep.deadline = s.deadline := rfl
@[simp] theorem State.timeStep_err : s.timeStep.err = s.err := rfl
@[simp] theorem State.timeStep_now : s.timeStep.now = s.now + 1 := rfl
@[simp] theorem State.timeStep_rx : s.timeStep.rx = s.rx := rfl
@[simp] theorem State.timeStep_trace : s.timeStep.trace = s.trace := rfl
@[simp] theorem State.timeStep_cancel : s.timeStep.cancel = s.cancel := rfl
@[simp] theorem State.timeStep_params : s.timeStep.params = s.params := rfl
@[simp] theorem State.timeStep_draws : s.timeStep.draws = s.draws := rfl
@[simp] theorem State.timeStep_agenda : s.timeStep.agenda = s.agenda := rfl

/-! ### setHit -/

@[simp] theorem State.setHit_pc (v : Bool) : (s.setHit v).pc = s.pc := rfl
@[simp] theorem State.setHit_run (v : Bool) : (s.setHit v).run = s.run := rfl
@[simp] theorem State.setHit_pinA (v : Bool) : (s.setHit v).pinA = s.pinA := rfl
@[simp] theorem State.setHit_pinB (v : Bool) : (s.setHit v).pinB = s.pinB := rfl
@[simp] theorem State.setHit_ind (v : Bool) : (s.setHit v).ind = s.ind := rfl
@[simp] theorem State.setHit_cfg (v : Bool) : (s.setHit v).cfg = s.cfg := rfl
@[simp] theorem State.setHit_rbuf (v : Bool) : (s.setHit v).rbuf = s.rbuf := rfl
@[simp] theorem State.setHit_cnt (v : Bool) : (s.setHit v).cnt = s.cnt := rfl
@[simp] theorem State.setHit_nlOwed (v : Bool) : (s.setHit v).nlOwed = s.nlOwed := rfl
@[simp] theorem State.setHit_hit (v : Bool) : (s.setHit v).hit = v := rfl
@[simp] theorem State.setHit_inbound (v : Bool) : (s.setHit v).inbound = s.inbound := rfl
@[simp] theorem State.setHit_deadline (v : Bool) : (s.setHit v).deadline = s.deadline := rfl
@[simp] theorem State.setHit_err (v : Bool) : (s.setHit v).err = s.err := rfl
@[simp] theorem State.setHit_now (v : Bool) : (s.setHit v).now = s.now := rfl
@[simp] theorem State.setHit_rx (v : Bool) : (s.setHit v).rx = s.rx := rfl
@[simp] theorem State.setHit_trace (v : Bool) : (s.setHit v).trace = s.trace := rfl
@[simp] theorem State.setHit_cancel (v : Bool) : (s.setHit v).cancel = s.cancel := rfl
@[simp] theorem State.setHit_params (v : Bool) : (s.setHit v).params = s.params := rfl
@[simp] theorem State.setHit_draws (v : Bool) : (s.setHit v).draws = s.draws := rfl
@[simp] theorem State.setHit_agenda (v : Bool) : (s.setHit v).agenda = s.agenda := rfl

/-! ### setNlOwed -/

@[simp] theorem State.setNlOwed_pc (v : Bool) : (s.setNlOwed v).pc = s.pc := rfl
@[simp] theorem State.setNlOwed_run (v : Bool) : (s.setNlOwed v).run = s.run := rfl
@[simp] theorem State.setNlOwed_pinA (v : Bool) : (s.setNlOwed v).pinA = s.pinA := rfl
@[simp] theorem State.setNlOwed_pinB (v : Bool) : (s.setNlOwed v).pinB = s.pinB := rfl
@[simp] theorem State.setNlOwed_ind (v : Bool) : (s.setNlOwed v).ind = s.ind := rfl
@[simp] theorem State.setNlOwed_cfg (v : Bool) : (s.setNlOwed v).cfg = s.cfg := rfl
@[simp] theorem State.setNlOwed_rbuf (v : Bool) : (s.setNlOwed v).rbuf = s.rbuf := rfl
@[simp] theorem State.setNlOwed_cnt (v : Bool) : (s.setNlOwed v).cnt = s.cnt := rfl
@[simp] theorem State.setNlOwed_nlOwed (v : Bool) : (s.setNlOwed v).nlOwed = v := rfl
@[simp] theorem State.setNlOwed_hit (v : Bool) : (s.setNlOwed v).hit = s.hit := rfl
@[simp] theorem State.setNlOwed_inbound (v : Bool) : (s.setNlOwed v).inbound = s.inbound := rfl
@[simp] theorem State.setNlOwed_deadline (v : Bool) : (s.setNlOwed v).deadline = s.deadline := rfl
@[simp] theorem State.setNlOwed_err (v : Bool) : (s.setNlOwed v).err = s.err := rfl
@[simp] theorem State.setNlOwed_now (v : Bool) : (s.setNlOwed v).now = s.now := rfl
@[simp] theorem State.setNlOwed_rx (v : Bool) : (s.setNlOwed v).rx = s.rx := rfl
@[simp] theorem State.setNlOwed_trace (v : Bool) : (s.setNlOwed v).trace = s.trace := rfl
@[simp] theorem State.setNlOwed_cancel (v : Bool) : (s.setNlOwed v).cancel = s.cancel := rfl
@[simp] theorem State.setNlOwed_params (v : Bool) : (s.setNlOwed v).params = s.params := rfl
@[simp] theorem State.setNlOwed_draws (v : Bool) : (s.setNlOwed v).draws = s.draws := rfl
@[simp] theorem State.setNlOwed_agenda (v : Bool) : (s.setNlOwed v).agenda = s.agenda := rfl

/-! ### stop -/

@[simp] theorem State.stop_pc : s.stop.pc = s.pc := rfl
@[simp] theorem State.stop_run : s.stop.run = .stopped := rfl
@[simp] theorem State.stop_pinA : s.stop.pinA = s.pinA := rfl
@[simp] theorem State.stop_pinB : s.stop.pinB = s.pinB := rfl
@[simp] theorem State.stop_ind : s.stop.ind = s.ind := rfl
@[simp] theorem State.stop_cfg : s.stop.cfg = s.cfg := rfl
@[simp] theorem State.stop_rbuf : s.stop.rbuf = s.rbuf := rfl
@[simp] theorem State.stop_cnt : s.stop.cnt = s.cnt := rfl
@[simp] theorem State.stop_nlOwed : s.stop.nlOwed = s.nlOwed := rfl
@[simp] theorem State.stop_hit : s.stop.hit = s.hit := rfl
@[simp] theorem State.stop_inbound : s.stop.inbound = s.inbound := rfl
@[simp] theorem State.stop_deadline : s.stop.deadline = s.deadline := rfl
@[simp] theorem State.stop_err : s.stop.err = s.err := rfl
@[simp] theorem State.stop_now : s.stop.now = s.now := rfl
@[simp] theorem State.stop_rx : s.stop.rx = s.rx := rfl
@[simp] theorem State.stop_trace : s.stop.trace = s.trace := rfl
@[simp] theorem State.stop_cancel : s.stop.cancel = s.cancel := rfl
@[simp] theorem State.stop_params : s.stop.params = s.params := rfl
@[simp] theorem State.stop_draws : s.stop.draws = s.draws := rfl
@[simp] theorem State.stop_agenda : s.stop.agenda = s.agenda := rfl

/-! ### setCnt -/

@[simp] theorem State.setCnt_pc (n : Nat) : (s.setCnt n).pc = s.pc := rfl
@[simp] theorem State.setCnt_run (n : Nat) : (s.setCnt n).run = s.run := rfl
@[simp] theorem State.setCnt_pinA (n : Nat) : (s.setCnt n).pinA = s.pinA := rfl
@[simp] theorem State.setCnt_pinB (n : Nat) : (s.setCnt n).pinB = s.pinB := rfl
@[simp] theorem State.setCnt_ind (n : Nat) : (s.setCnt n).ind = s.ind := rfl
@[simp] theorem State.setCnt_cfg (n : Nat) : (s.setCnt n).cfg = s.cfg := rfl
@[simp] theorem State.setCnt_rbuf (n : Nat) : (s.setCnt n).rbuf = s.rbuf := rfl
@[simp] theorem State.setCnt_cnt (n : Nat) : (s.setCnt n).cnt = n := rfl
@[simp] theorem State.setCnt_nlOwed (n : Nat) : (s.setCnt n).nlOwed = s.nlOwed := rfl
@[simp] theorem State.setCnt_hit (n : Nat) : (s.setCnt n).hit = s.hit := rfl
@[simp] theorem State.setCnt_inbound (n : Nat) : (s.setCnt n).inbound = s.inbound := rfl
@[simp] theorem State.setCnt_deadline (n : Nat) : (s.setCnt n).deadline = s.deadline := rfl
@[simp] theorem State.setCnt_err (n : Nat) : (s.setCnt n).err = s.err := rfl
@[simp] theorem State.setCnt_now (n : Nat) : (s.setCnt n).now = s.now := rfl
@[simp] theorem State.setCnt_rx (n : Nat) : (s.setCnt n).rx = s.rx := rfl
@[simp] theorem State.setCnt_trace (n : Nat) : (s.setCnt n).trace = s.trace := rfl
@[simp] theorem State.setCnt_cancel (n : Nat) : (s.setCnt n).cancel = s.cancel := rfl
@[simp] theorem State.setCnt_params (n : Nat) : (s.setCnt n).params = s.params := rfl
@[simp] theorem State.setCnt_draws (n : Nat) : (s.setCnt n).draws = s.draws := rfl
@[simp] theorem State.setCnt_agenda (n : Nat) : (s.setCnt n).agenda = s.agenda := rfl

/-! ### setLatch -/

@[simp] theorem State.setLatch_pc (p : Line) (v : Level) : (s.setLatch p v).pc = s.pc := by cases p <;> rfl
@[simp] theorem State.setLatch_run (p : Line) (v : Level) : (s.setLatch p v).run = s.run := by cases p <;> rfl
@[simp] theorem State.setLatch_a_pinA (v : Level) : (s.setLatch .a v).pinA = some v := rfl
@[simp] theorem State.setLatch_b_pinA (v : Level) : (s.setLatch .b v).pinA = s.pinA := rfl
@[simp] theorem State.setLatch_a_pinB (v : Level) : (s.setLatch .a v).pinB = s.pinB := rfl
@[simp] theorem State.setLatch_b_pinB (v : Level) : (s.setLatch .b v).pinB = some v := rfl
@[simp] theorem State.setLatch_ind (p : Line) (v : Level) : (s.setLatch p v).ind = s.ind := by cases p <;> rfl
@[simp] theorem State.setLatch_cfg (p : Line) (v : Level) : (s.setLatch p v).cfg = s.cfg := by cases p <;> rfl
@[simp] theorem State.setLatch_rbuf (p : Line) (v : Level) : (s.setLatch p v).rbuf = s.rbuf := by cases p <;> rfl
@[simp] theorem State.setLatch_cnt (p : Line) (v : Level) : (s.setLatch p v).cnt = s.cnt := by cases p <;> rfl
@[simp] theorem State.setLatch_nlOwed (p : Line) (v : Level) : (s.setLatch p v).nlOwed = s.nlOwed := by cases p <;> rfl
@[simp] theorem State.setLatch_hit (p : Line) (v : Level) : (s.setLatch p v).hit = s.hit := by cases p <;> rfl
@[simp] theorem State.setLatch_inbound (p : Line) (v : Level) : (s.setLatch p v).inbound = s.inbound := by cases p <;> rfl
@[simp] theorem State.setLatch_deadline (p : Line) (v : Level) : (s.setLatch p v).deadline = s.deadline := by cases p <;> rfl
@[simp] theorem State.setLatch_err (p : Line) (v : Level) : (s.setLatch p v).err = s.err := by cases p <;> rfl
@[simp] theorem State.setLatch_now (p : Line) (v : Level) : (s.setLatch p v).now = s.now := by cases p <;> rfl
@[simp] theorem State.setLatch_rx (p : Line) (v : Level) : (s.setLatch p v).rx = s.rx := by cases p <;> rfl
@[simp] theorem State.setLatch_trace (p : Line) (v : Level) : (s.setLatch p v).trace = s.trace := by cases p <;> rfl
@[simp] theorem State.setLatch_cancel (p : Line) (v : Level) : (s.setLatch p v).cancel = s.cancel := by cases p <;> rfl
@[simp] theorem State.setLatch_params (p : Line) (v : Level) : (s.setLatch p v).params = s.params := by cases p <;> rfl
@[simp] theorem State.setLatch_draws (p : Line) (v : Level) : (s.setLatch p v).draws = s.draws := by cases p <;> rfl
@[simp] theorem State.setLatch_agenda (p : Line) (v : Level) : (s.setLatch p v).agenda = s.agenda := by cases p <;> rfl

/-! ### letSettle -/

@[simp] theorem State.letSettle_pc : s.letSettle.pc = s.pc := rfl
@[simp] theorem State.letSettle_run : s.letSettle.run = s.run := rfl
@[simp] theorem State.letSettle_pinA : s.letSettle.pinA = s.pinA := rfl
@[simp] theorem State.letSettle_pinB : s.letSettle.pinB = s.pinB := rfl
@[simp] theorem State.letSettle_ind : s.letSettle.ind = s.ind := rfl
@[simp] theorem State.letSettle_cfg : s.letSettle.cfg = s.cfg := rfl
@[simp] theorem State.letSettle_rbuf : s.letSettle.rbuf = s.rbuf := rfl
@[simp] theorem State.letSettle_cnt : s.letSettle.cnt = s.cnt := rfl
@[simp] theorem State.letSettle_nlOwed : s.letSettle.nlOwed = s.nlOwed := rfl
@[simp] theorem State.letSettle_hit : s.letSettle.hit = s.hit := rfl
@[simp] theorem State.letSettle_inbound : s.letSettle.inbound = s.inbound := rfl
@[simp] theorem State.letSettle_deadline : s.letSettle.deadline = s.deadline := rfl
@[simp] theorem State.letSettle_err : s.letSettle.err = s.err := rfl
@[simp] theorem State.letSettle_now : s.letSettle.now = s.now := rfl
@[simp] theorem State.letSettle_rx : s.letSettle.rx = s.rx := rfl
@[simp] theorem State.letSettle_trace : s.letSettle.trace = s.trace := rfl
@[simp] theorem State.letSettle_cancel : s.letSettle.cancel = s.cancel := rfl
@[simp] theorem State.letSettle_params : s.letSettle.params = s.params := rfl
@[simp] theorem State.letSettle_draws : s.letSettle.draws = s.draws := rfl
@[simp] theorem State.letSettle_agenda : s.letSettle.agenda = List.replicate Config.tSettleMs .time ++ s.agenda := rfl

/-! ### Operations made of others -/

@[simp] theorem State.advance_eq : s.advance = s.goto (s.pc + 1) := rfl
@[simp] theorem State.logEvent_eq (e : LogEvent) : s.logEvent e = s.emit (.log e) := rfl
@[simp] theorem State.uartWrite_eq (bs : List Byte) : s.uartWrite bs = s.emit (.tx bs) := rfl
@[simp] theorem State.pinWrite_eq (p : Line) (v : Level) : s.pinWrite p v = (s.setLatch p v).emit (.pin p v) := rfl
@[simp] theorem State.finishPoll_eq (r : Bool) : s.finishPoll r = s.disarm.setHit r := rfl
@[simp] theorem State.setPin_eq (p : Line) (v : Level) : s.setPin p v = s.pinWriteThen p v State.advance := rfl
@[simp] theorem State.raiseConfigurationError_frequency :
    s.raiseConfigurationError .outOfRangeFrequency = s.raiseFatal .outOfRangeFrequency := rfl
@[simp] theorem State.raiseConfigurationError_rate :
    s.raiseConfigurationError .unknownAirRate = s.raiseFatal .unknownAirRate := rfl
@[simp] theorem State.payNewline_owed (h : s.nlOwed = true) :
    s.payNewline = (s.emit (.log .logNewline)).setNlOwed false := by simp [State.payNewline, h]
@[simp] theorem State.payNewline_notOwed (h : s.nlOwed = false) : s.payNewline = s := by simp [State.payNewline, h]

end Sys2Proof.Machine
end

