-- ==== Sys2Proof/Laws/Ops.lean ====
section
/-! SUPPORT. What each shared operation can do, said once, and what one step of the machine can do: the proofs cite these and
unfold neither the operations nor the step. -/

namespace Sys2Proof.Machine

/-! ## Waits -/

theorem State.delay_unarmed {s : State} (d : Nat) (h : s.deadline = none) : s.delay d = s.arm d := by
  simp only [State.delay, h]

theorem State.delay_over {s : State} (d : Nat) {e : Nat} (h : s.deadline = some e) (he : e ≤ s.now) :
    s.delay d = s.disarm.advance := by
  simp only [State.delay, h, if_pos he]

theorem State.delay_waiting {s : State} (d : Nat) {e : Nat} (h : s.deadline = some e) (he : s.now < e) :
    s.delay d = s := by
  simp only [State.delay, h, if_neg (Nat.not_le.mpr he)]

/-- A delay arms, completes or waits (20_memory.md R56). -/
theorem State.delay_cases (s : State) (d : Nat) :
    (s.deadline = none ∧ s.delay d = s.arm d) ∨
    (∃ e, s.deadline = some e ∧ e ≤ s.now ∧ s.delay d = s.disarm.advance) ∨
    (∃ e, s.deadline = some e ∧ s.now < e ∧ s.delay d = s) := by
  cases h : s.deadline with
  | none => exact .inl ⟨rfl, s.delay_unarmed d h⟩
  | some e =>
    rcases Nat.lt_or_ge s.now e with he | he
    · exact .inr (.inr ⟨e, rfl, he, s.delay_waiting d h he⟩)
    · exact .inr (.inl ⟨e, rfl, he, s.delay_over d h he⟩)

/-! ## Pin writes -/

theorem State.pinWriteThen_sure {s : State} (p : Line) (v : Level) (k : State → State)
    (h : s.params.pinWriteCanFail = false) : s.pinWriteThen p v k = k (s.pinWrite p v) := by
  simp only [State.pinWriteThen, h, Bool.false_eq_true, if_false]

theorem State.pinWriteThen_fails {s : State} (p : Line) (v : Level) (k : State → State)
    (h : s.params.pinWriteCanFail = true) (hf : Config.pinWriteFails s.draws = true) :
    s.pinWriteThen p v k = s.drawn.raiseFatal .pinWriteFault := by
  simp only [State.pinWriteThen, h, hf, if_true]

theorem State.pinWriteThen_succeeds {s : State} (p : Line) (v : Level) (k : State → State)
    (h : s.params.pinWriteCanFail = true) (hf : Config.pinWriteFails s.draws = false) :
    s.pinWriteThen p v k = k (s.drawn.pinWrite p v) := by
  simp only [State.pinWriteThen, h, hf, if_true, Bool.false_eq_true, if_false]

/-- A pin write takes place, with or without a draw, or raises the fault (20_memory.md R57). -/
theorem State.pinWriteThen_cases (s : State) (p : Line) (v : Level) (k : State → State) :
    s.pinWriteThen p v k = k (s.pinWrite p v) ∨
    s.pinWriteThen p v k = k (s.drawn.pinWrite p v) ∨
    s.pinWriteThen p v k = s.drawn.raiseFatal .pinWriteFault := by
  cases h : s.params.pinWriteCanFail with
  | false => exact .inl (State.pinWriteThen_sure p v k h)
  | true =>
    cases hf : Config.pinWriteFails s.draws with
    | false => exact .inr (.inl (State.pinWriteThen_succeeds p v k h hf))
    | true => exact .inr (.inr (State.pinWriteThen_fails p v k h hf))

/-! ## Encodings on the UART -/

theorem State.pinJustWritten_eq_false (s : State) :
    s.pinJustWritten = false ↔ ∀ x ∈ s.trace, x.1.isPin = true → x.2 + Config.tSettleMs ≤ s.now := by
  simp [State.pinJustWritten]

theorem emitOnUart_refused {s : State} (bs : List Byte) (h : s.inSettleWindow = true ∨ s.pinJustWritten = true) :
    emitOnUart bs s = .refused .settleWindow := by
  rcases h with h | h <;> simp [emitOnUart, h]

theorem emitOnUart_sent {s : State} (bs : List Byte) (h : s.inSettleWindow = false) (hp : s.pinJustWritten = false) :
    emitOnUart bs s = .next (s.uartWrite bs) := by
  simp [emitOnUart, h, hp]

theorem emitOnUart_next {s t : State} {bs : List Byte} (h : emitOnUart bs s = .next t) :
    s.inSettleWindow = false ∧ s.pinJustWritten = false ∧ t = s.emit (.tx bs) := by
  simp only [emitOnUart] at h
  split at h
  · cases h
  · next hs => cases h; simpa using hs

/-- A pattern is driven whole, with or without draws, or one of its two writes raises the fault (log entry 20). -/
theorem State.drivePins_cases (s : State) (a b : Level) :
    ∃ s1, (s1 = s ∨ s1 = s.drawn) ∧
      (s.drivePins a b = s1.raiseFatal .pinWriteFault ∨
        ∃ s2, (s2 = s1.pinWrite .a a ∨ s2 = (s1.pinWrite .a a).drawn) ∧
          (s.drivePins a b = s2.raiseFatal .pinWriteFault ∨ s.drivePins a b = (s2.pinWrite .b b).letSettle)) := by
  simp only [State.drivePins]
  rcases s.pinWriteThen_cases .a a (fun s1 => s1.pinWriteThen .b b State.letSettle) with h | h | h <;> rw [h]
  · refine ⟨s, .inl rfl, .inr ?_⟩
    rcases (s.pinWrite .a a).pinWriteThen_cases .b b State.letSettle with h | h | h <;> rw [h]
    · exact ⟨_, .inl rfl, .inr rfl⟩
    · exact ⟨_, .inr rfl, .inr rfl⟩
    · exact ⟨_, .inr rfl, .inl rfl⟩
  · refine ⟨s.drawn, .inr rfl, .inr ?_⟩
    rcases (s.drawn.pinWrite .a a).pinWriteThen_cases .b b State.letSettle with h | h | h <;> rw [h]
    · exact ⟨_, .inl rfl, .inr rfl⟩
    · exact ⟨_, .inr rfl, .inr rfl⟩
    · exact ⟨_, .inr rfl, .inl rfl⟩
  · exact ⟨s.drawn, .inr rfl, .inl rfl⟩

/-- What a row that is no micro-operation can do: its bytes leave outside the settle windows, or its pattern is driven. -/
theorem probe_cases {s t : State} {i : Instr} (hi : i.isMicroOp = false) (h : exec i s = .next t) :
    (s.inSettleWindow = false ∧ s.pinJustWritten = false ∧ ∃ bs, encode i = .bytes bs ∧ t = s.emit (.tx bs)) ∨
    (i = .pinsNormal ∧ t = s.drivePins .zero .zero) ∨
    (i = .pinsConfiguration ∧ s.pc < 25 ∧ t = s.drivePins .one .one) := by
  cases i <;> first | (cases hi; done) | skip
  case pinsNormal => cases h; exact .inr (.inl ⟨rfl, rfl⟩)
  case pinsConfiguration =>
    simp only [exec, execPinsConfiguration] at h
    split at h
    · cases h
    · next hc => cases h; exact .inr (.inr ⟨rfl, by simpa [State.configurationDone] using hc, rfl⟩)
  case pinsReserved => cases h
  all_goals
    obtain ⟨h1, h2, h3⟩ := emitOnUart_next h
    exact .inl ⟨h1, h2, _, rfl, h3⟩

/-! ## The step -/

theorem blockStep_microOp {s : State} {i : Instr} (h : microOpAt s.pc = some i) : blockStep s = exec i s := by
  simp only [blockStep, h]

/-- A block that is ready runs, and the rule of the micro-operation at its pc is its step. -/
theorem State.blockReady_run {s : State} (h : s.blockReady = true) : s.run = .run := by
  cases hr : s.run with
  | run => rfl
  | error => simp [State.blockReady, hr] at h
  | stopped => simp [State.blockReady, hr] at h

/-- Whose move a step is: the block's micro-operation, time's, the environment's, the probe's, or a turn that passes.
`s.agenda` is what is left of the agenda after it. -/
inductive StepCase (s t : State) (rest : List Turn) : Prop where
  | block (i : Instr) (at_pc : microOpAt s.pc = some i) (running : s.run = .run)
      (runs : exec i { s with agenda := rest } = .next t)
  | time (moved : t = ({ s with agenda := rest } : State).timeStep)
  | environment (n : Nat) (e : EnvEvent) (due : n ≤ s.now) (head : s.agenda = .env n e :: rest)
      (moved : t = ({ s with agenda := rest } : State).environment e)
  | probe (nbits w : Nat) (i : Instr) (head : s.agenda = .issue nbits w :: rest) (running : s.run = .run)
      (row : decodeTableWord nbits w = some i) (kind : i.isMicroOp = false) (runs : exec i { s with agenda := rest } = .next t)
  | passed (moved : t = { s with agenda := rest })

theorem blockReady_agenda (s : State) (rest : List Turn) :
    ({ s with agenda := rest } : State).blockReady = s.blockReady := by
  simp only [State.blockReady]
  split
  · split
    · rename_i i _
      cases i <;> rfl
    · rfl
  · rfl
  · rfl

theorem blockStep_case {s t : State} (rest : List Turn) (hr : s.blockReady = true)
    (h : blockStep { s with agenda := rest } = .next t) : StepCase s t rest := by
  cases hi : microOpAt s.pc with
  | none => simp [blockStep, hi] at h
  | some i => exact .block i hi (State.blockReady_run hr) (by simpa [blockStep, hi] using h)

theorem earliestTurn_case {s t : State} (h : earliestTurn s = .next t) : StepCase s t s.agenda := by
  simp only [earliestTurn] at h
  split at h
  · next hr => exact blockStep_case s.agenda hr h
  · exact .time (by simpa using h.symm)

/-- One step is one agent's move, and the agenda loses at most its head. -/
theorem step_cases {s t : State} (h : step s = .next t) :
    ∃ rest, (rest = s.agenda ∨ ∃ u, s.agenda = u :: rest) ∧ StepCase s t rest := by
  simp only [step, takeTurn] at h
  split at h
  · exact ⟨_, .inl rfl, earliestTurn_case h⟩
  · next rest ha =>
    refine ⟨rest, .inr ⟨_, ha⟩, ?_⟩
    simp only [blockTurn, blockReady_agenda] at h
    split at h
    · next hr => exact blockStep_case rest hr h
    · exact .passed (by simpa using h.symm)
  · next rest ha => exact ⟨rest, .inr ⟨_, ha⟩, .time (by simpa using h.symm)⟩
  · next n e rest ha =>
    split at h
    · next due => exact ⟨rest, .inr ⟨_, ha⟩, .environment n e due ha (by simpa using h.symm)⟩
    · exact ⟨_, .inl rfl, earliestTurn_case h⟩
  · next nbits w rest ha =>
    refine ⟨rest, .inr ⟨_, ha⟩, ?_⟩
    simp only [issueTurn] at h
    split at h
    · next hr =>
      split at h
      · next i hi =>
        split at h
        · cases h
        · next hk => exact .probe nbits w i ha hr hi (by simpa using hk) h
      · cases h
    · exact .passed (by simpa using h.symm)
    · exact .passed (by simpa using h.symm)

end Sys2Proof.Machine
end

