-- ==== Sys2Proof/Laws/Executions.lean ====
section
/-! SUPPORT. What each turn of a run is, said once. -/

namespace Sys2Proof.Machine

@[simp] theorem State.given_agenda (s : State) (t : Turn) : (s.given t).agenda = [t] := rfl

@[simp] theorem State.given_eq (s : State) (t : Turn) : s.given t = { s with agenda := [t] } := rfl

/-- The block's turn in a run is its step, on a state with nothing left of the agenda. -/
theorem Execution.IsRun.block_turn {x : Execution} (h : x.IsRun) {k : Nat} (ht : x.turns k = .block) :
    (x.states k).blockReady = true ∧ blockStep { x.states k with agenda := [] } = .next (x.states (k + 1)) := by
  obtain ⟨hr, hs⟩ := h k
  rw [ht] at hr hs
  have hr' : ({ x.states k with agenda := [] } : State).blockReady = true := hr
  exact ⟨hr, by simpa [step, takeTurn, blockTurn, hr'] using hs⟩

/-- Every other turn of a run changes nothing but the clock, the receive buffer, the cancel input and the agenda. -/
theorem Execution.IsRun.other_turn {x : Execution} (h : x.IsRun) {k : Nat} (ht : x.turns k ≠ .block) :
    ∃ now rx cancel, (x.states k).now ≤ now ∧ (∃ bs, rx = (x.states k).rx ++ bs) ∧
      x.states (k + 1) = { x.states k with now := now, rx := rx, cancel := cancel, agenda := [] } := by
  obtain ⟨hr, hs⟩ := h k
  cases hx : x.turns k with
  | block => exact absurd hx ht
  | issue n w => simp [hx, Turn.enabledAt] at hr
  | time =>
    simp only [hx, State.given_eq, step, takeTurn, Host.Outcome.next.injEq] at hs
    exact ⟨_, _, _, Nat.le_succ _, ⟨[], (List.append_nil _).symm⟩, hs.symm⟩
  | env n e =>
    cases e with
    | hostReset p => simp [hx, Turn.enabledAt] at hr
    | moduleSend b bs =>
      have hn : n ≤ (x.states k).now := by simpa [hx, Turn.enabledAt] using hr
      simp only [hx, State.given_eq, step, takeTurn, hn, if_true, Host.Outcome.next.injEq] at hs
      exact ⟨_, _, _, Nat.le_refl _, ⟨b :: bs, rfl⟩, hs.symm⟩
    | setCancel v =>
      have hn : n ≤ (x.states k).now := by simpa [hx, Turn.enabledAt] using hr
      simp only [hx, State.given_eq, step, takeTurn, hn, if_true, Host.Outcome.next.injEq] at hs
      exact ⟨_, _, _, Nat.le_refl _, ⟨[], (List.append_nil _).symm⟩, hs.symm⟩

end Sys2Proof.Machine
end

