-- ==== Sys2Proof/Laws/Moves.lean ====
section
/-! SUPPORT. What one step of the hardwired block can do, said once over the 36 micro-operations: `BlockMove` names every next
state with the pcs it is taken from, and `block_move` says that there is no other. Proofs about every step split this. -/

namespace Sys2Proof.Machine

/-- Every next state of a step of the block at `s.pc`. -/
inductive BlockMove (s : State) : State → Prop where
  | validated (c : ConfigRegisters) (at_pc : s.pc = 0) (valid : validConfig s.params = some c) :
      BlockMove s (({ s with cfg := some c } : State).goto 1)
  | rejected (s1 : State) (c : ErrCode) (at_pc : s.pc = 0) (drew : s1 = s ∨ s1 = s.drawn)
      (code : c = .outOfRangeFrequency ∨ c = .unknownAirRate) : BlockMove s (s1.raiseFatal c)
  | pinFault (at_pc : s.pc = 1 ∨ s.pc = 2 ∨ s.pc = 21 ∨ s.pc = 22) : BlockMove s (s.drawn.raiseFatal .pinWriteFault)
  | pinWritten (s1 : State) (p : Line) (v : Level) (drew : s1 = s ∨ s1 = s.drawn)
      (at_pc : s.pc = 1 ∧ p = .a ∧ v = .one ∨ s.pc = 2 ∧ p = .b ∧ v = .one ∨
        s.pc = 21 ∧ p = .a ∧ v = .zero ∨ s.pc = 22 ∧ p = .b ∧ v = .zero) :
      BlockMove s (((s1.setLatch p v).emit (.pin p v)).goto (s.pc + 1))
  | indicator (v : OnOff)
      (at_pc : s.pc = 3 ∧ v = .on ∨ s.pc = 23 ∧ v = .off ∨ s.pc = 30 ∧ v = .on ∨ s.pc = 33 ∧ v = .off) :
      BlockMove s ((s.indicatorSet v).goto (s.pc + 1))
  | armed (d : Nat) (unarmed : s.deadline = none) (wait : waitMs s.params s.pc = some d) : BlockMove s (s.arm d)
  | waiting (e : Nat) (armed : s.deadline = some e) (early : s.now < e) : BlockMove s s
  | delayed (e : Nat) (armed : s.deadline = some e) (due : e ≤ s.now)
      (at_pc : s.pc = 4 ∨ s.pc = 6 ∨ s.pc = 10 ∨ s.pc = 14 ∨ s.pc = 18 ∨ s.pc = 24) :
      BlockMove s (s.disarm.goto (s.pc + 1))
  | sent (bs : List Byte)
      (at_pc : s.pc = 5 ∧ bs = queryVersionFrame ∨ (s.pc = 9 ∨ s.pc = 17) ∧ bs = readConfigFrame ∨
        s.pc = 13 ∧ (∃ c, s.cfg = some c ∧ bs = writeConfigFrame c) ∨
        s.pc = 31 ∧ bs = replyBytes s.cnt ∨ s.pc = 34 ∧ bs = heartbeatBytes s.cnt) :
      BlockMove s ((s.emit (.tx bs)).goto (s.pc + 1))
  | answered (at_pc : s.pc = 7 ∨ s.pc = 11 ∨ s.pc = 15 ∨ s.pc = 19) : BlockMove s (s.readToRbuf.goto (s.pc + 1))
  | logged (tag : ExchangeTag)
      (at_pc : s.pc = 8 ∧ tag = .queryVersion ∨ s.pc = 12 ∧ tag = .readOld ∨ s.pc = 16 ∧ tag = .writeNew ∨
        s.pc = 20 ∧ tag = .readBack) :
      BlockMove s ((s.emit (.log (.logHex tag s.rbuf))).goto (s.pc + 1))
  | loopStarted (at_pc : s.pc = 25) : BlockMove s (((s.setCnt 0).setNlOwed false).goto 26)
  | cancelled (at_pc : s.pc = 26) (cancel : s.cancel = true) : BlockMove s s.stop
  | ticked (at_pc : s.pc = 26) (cancel : s.cancel = false) : BlockMove s ((s.setCnt (s.cnt + 1)).goto 27)
  | polled (e : Nat) (r : Bool) (at_pc : s.pc = 27) (armed : s.deadline = some e)
      (result : r = true ∧ s.rx ≠ [] ∨ r = false ∧ s.rx = [] ∧ e ≤ s.now) : BlockMove s ((s.disarm.setHit r).goto 28)
  | branched (at_pc : s.pc = 28) : BlockMove s (s.goto (if s.hit then 29 else 33))
  | received (at_pc : s.pc = 29) : BlockMove s (s.readToInbound.goto 30)
  | activity (at_pc : s.pc = 32) :
      BlockMove s ((s.payNewline.emit (.log (.logActivity (decodeText s.params.decode s.inbound) s.cnt))).goto 26)
  | dotted (at_pc : s.pc = 35) : BlockMove s (((s.emit (.log .logDot)).setNlOwed true).goto 26)

theorem validate_move {s t : State} (hp : s.pc = 0) (h : execValidate s = .next t) : BlockMove s t := by
  simp only [execValidate] at h
  split at h <;> cases h
  · next rate hf hr => exact .validated _ hp (by simp [validConfig, hf, hr])
  · exact .rejected s _ hp (.inl rfl) (.inr rfl)
  · exact .rejected s _ hp (.inl rfl) (.inl rfl)
  · cases hd : Config.reportsFrequency s.draws with
    | true => exact .rejected s.drawn _ hp (.inr rfl) (.inl rfl)
    | false => exact .rejected s.drawn _ hp (.inr rfl) (.inr rfl)

theorem delay_move {s : State} {d : Nat} (hw : waitMs s.params s.pc = some d)
    (hp : s.pc = 4 ∨ s.pc = 6 ∨ s.pc = 10 ∨ s.pc = 14 ∨ s.pc = 18 ∨ s.pc = 24) : BlockMove s (s.delay d) := by
  rcases s.delay_cases d with ⟨hd, he⟩ | ⟨e, hd, hn, he⟩ | ⟨e, hd, hn, he⟩ <;> rw [he]
  · exact .armed d hd hw
  · exact .delayed e hd hn hp
  · exact .waiting e hd hn

theorem pinWritten_move {s : State} {p : Line} {v : Level} (s1 : State) (drew : s1 = s ∨ s1 = s.drawn)
    (hp : s.pc = 1 ∧ p = .a ∧ v = .one ∨ s.pc = 2 ∧ p = .b ∧ v = .one ∨
      s.pc = 21 ∧ p = .a ∧ v = .zero ∨ s.pc = 22 ∧ p = .b ∧ v = .zero) : BlockMove s (s1.pinWrite p v).advance := by
  have hpc : (s1.pinWrite p v).pc = s.pc := by rcases drew with rfl | rfl <;> simp
  rw [State.advance_eq, hpc]
  exact .pinWritten s1 p v drew hp

theorem setPin_move {s : State} {p : Line} {v : Level}
    (hp : s.pc = 1 ∧ p = .a ∧ v = .one ∨ s.pc = 2 ∧ p = .b ∧ v = .one ∨
      s.pc = 21 ∧ p = .a ∧ v = .zero ∨ s.pc = 22 ∧ p = .b ∧ v = .zero) : BlockMove s (s.setPin p v) := by
  rcases s.pinWriteThen_cases p v State.advance with h | h | h <;> rw [State.setPin_eq, h]
  · exact pinWritten_move s (.inl rfl) hp
  · exact pinWritten_move s.drawn (.inr rfl) hp
  · exact .pinFault (by omega)

theorem poll_move {s t : State} (hp : s.pc = 27) (h : execPollTPoll s = .next t) : BlockMove s t := by
  simp only [execPollTPoll] at h
  split at h
  · next hd => cases h; exact .armed _ hd (by simp [waitMs, hp])
  · next e hd =>
    split at h
    · next hr => cases h; exact .polled e true hp hd (.inl ⟨rfl, hr⟩)
    · next hr =>
      split at h <;> cases h
      · next he => exact .polled e false hp hd (.inr ⟨rfl, by simpa using hr, he⟩)
      · next he => exact .waiting e hd (Nat.lt_of_not_le he)

/-- A step of the block is one of the moves of `BlockMove`. -/
theorem block_move {s t : State} {i : Instr} (hi : microOpAt s.pc = some i) (h : exec i s = .next t) : BlockMove s t := by
  unfold microOpAt at hi
  split at hi <;> rename_i hp <;> first | (cases hi; done) | cases hi
  · exact validate_move hp h
  · cases h; exact setPin_move (by simp [hp])
  · cases h; exact setPin_move (by simp [hp])
  · cases h; exact .indicator .on (by simp [hp])
  · cases h; exact delay_move (by simp [waitMs, hp]) (by simp [hp])
  · cases h; have := BlockMove.sent (s := s) queryVersionFrame (by simp [hp]); simpa [hp] using this
  · cases h; exact delay_move (by simp [waitMs, hp]) (by simp [hp])
  · cases h; exact .answered (by simp [hp])
  · cases h; exact .logged .queryVersion (by simp [hp])
  · cases h; exact .sent readConfigFrame (by simp [hp])
  · cases h; exact delay_move (by simp [waitMs, hp]) (by simp [hp])
  · cases h; exact .answered (by simp [hp])
  · cases h; exact .logged .readOld (by simp [hp])
  · simp only [exec, execSendWc] at h
    split at h <;> cases h
    next c hc =>
    have := BlockMove.sent (s := s) (writeConfigFrame c) (by simp [hp, hc])
    simpa [hp] using this
  · cases h; exact delay_move (by simp [waitMs, hp]) (by simp [hp])
  · cases h; exact .answered (by simp [hp])
  · cases h; exact .logged .writeNew (by simp [hp])
  · cases h; exact .sent readConfigFrame (by simp [hp])
  · cases h; exact delay_move (by simp [waitMs, hp]) (by simp [hp])
  · cases h; exact .answered (by simp [hp])
  · cases h; exact .logged .readBack (by simp [hp])
  · cases h; exact setPin_move (by simp [hp])
  · cases h; exact setPin_move (by simp [hp])
  · cases h; exact .indicator .off (by simp [hp])
  · cases h; exact delay_move (by simp [waitMs, hp]) (by simp [hp])
  · cases h; exact .loopStarted hp
  · simp only [exec, execTick] at h
    split at h <;> cases h
    · next hc => exact .cancelled hp hc
    · next hc => exact .ticked hp (by simpa using hc)
  · exact poll_move hp h
  · cases h; exact .branched hp
  · cases h; exact .received hp
  · cases h; have := BlockMove.indicator (s := s) .on (by simp [hp]); simpa [hp] using this
  · cases h; have := BlockMove.sent (s := s) (replyBytes s.cnt) (by simp [hp]); simpa [hp] using this
  · cases h; exact .activity hp
  · cases h; have := BlockMove.indicator (s := s) .off (by simp [hp]); simpa [hp] using this
  · cases h; have := BlockMove.sent (s := s) (heartbeatBytes s.cnt) (by simp [hp]); simpa [hp] using this
  · cases h; exact .dotted hp

/-- One step of the hardwired machine: a move of the block, a millisecond, an environment event, or a turn that passes, on the
state with what is left of the agenda. -/
inductive Move (s0 t : State) : Prop where
  | block (running : s0.run = .run) (move : BlockMove s0 t)
  | time (moved : t = s0.timeStep)
  | environment (e : EnvEvent) (moved : t = s0.environment e)
  | passed (moved : t = s0)

theorem step_move {s t : State} (h : step s = .next t) (hw : ∀ n w rest, s.agenda ≠ .issue n w :: rest) :
    ∃ rest, (rest = s.agenda ∨ ∃ u, s.agenda = u :: rest) ∧ Move { s with agenda := rest } t := by
  obtain ⟨rest, hrest, hc⟩ := step_cases h
  refine ⟨rest, hrest, ?_⟩
  cases hc with
  | block i at_pc running runs => exact .block running (block_move at_pc runs)
  | time moved => exact .time moved
  | environment n e due head moved => exact .environment e moved
  | probe nbits w i head running row kind runs => exact absurd head (hw nbits w rest)
  | passed moved => exact .passed moved

/-- The same within a run: no probe and no reset ahead, so an environment event is bytes or the cancel input. -/
theorem run_move {s t : State} (h : step s = .next t) (hw : s.nextTurnInRun = true) :
    ∃ rest, (rest = s.agenda ∨ ∃ u, s.agenda = u :: rest) ∧
      ((s.run = .run ∧ BlockMove { s with agenda := rest } t) ∨
        (t = { s with now := s.now + 1, agenda := rest }) ∨
        (∃ b bs, t = { s with rx := s.rx ++ b :: bs, agenda := rest }) ∨
        (∃ v, t = { s with cancel := v, agenda := rest }) ∨
        t = { s with agenda := rest }) := by
  obtain ⟨rest, hrest, hc⟩ := step_cases h
  refine ⟨rest, hrest, ?_⟩
  cases hc with
  | block i at_pc running runs => exact .inl ⟨running, block_move at_pc runs⟩
  | time moved => exact .inr (.inl moved)
  | environment n e due head moved =>
    cases e with
    | moduleSend b bs => exact .inr (.inr (.inl ⟨b, bs, moved⟩))
    | setCancel v => exact .inr (.inr (.inr (.inl ⟨v, moved⟩)))
    | hostReset p => simp [State.nextTurnInRun, head] at hw
  | probe nbits w i head running row kind runs => simp [State.nextTurnInRun, head] at hw
  | passed moved => exact .inr (.inr (.inr (.inr moved)))

end Sys2Proof.Machine
end

