-- ==== Sys2Proof/Laws/PerInstr.lean ====
section
/-! SUPPORT. Statements made for every instruction, with one lemma per constructor: `RoundTrip` says that a well-formed row's
encoding decodes to the row. -/

namespace Sys2Proof.Laws.RoundTrip

/-- The encoding of a well-formed row, read back (spec/30_encoding.md R71 to R90, 42_sequencer.md R150). -/
def Statement (i : Instr) : Prop := i.wellFormed = true → decode (encode i) = .ok i

theorem frameQv : Statement .frameQv := fun _ => rfl

theorem frameRc : Statement .frameRc := fun _ => rfl

theorem frameWc (address : BitVec 16) (rate : AirRate) (channel : Byte) (fixed : Bool) (drive : DriveMode)
    (wakeup : BitVec 3) (fec : Bool) (power : PowerLevel) :
    Statement (.frameWc address rate channel fixed drive wakeup fec power) := by
  intro _
  have h1 : Config.wcOpcode ≠ Config.qvHeader := by decide
  have h2 : Config.wcOpcode ≠ Config.rcHeader := by decide
  obtain ⟨o7, o6, o3, o2, o0⟩ := optionByte_fields fixed drive wakeup fec power
  simp only [decode, encode, decodeBytes, writeConfigFrame, configRegistersOf, decodeWriteConfig, if_neg h1, if_neg h2,
    if_pos, spedByte_upper, spedByte_code, AirRate.ofCode_code, o7, o6, o3, o2, o0, DriveMode.ofBit_isPushPull,
    PowerLevel.ofCode_code, hi8_append_lo8]

theorem pinsNormal : Statement .pinsNormal := fun _ => rfl

theorem pinsConfiguration : Statement .pinsConfiguration := fun _ => rfl

theorem pinsReserved (a b : Level) : Statement (.pinsReserved a b) := by
  intro h
  cases a <;> cases b <;> first | rfl | exact absurd h (by decide)

theorem msgHeartbeat (n : Nat) : Statement (.msgHeartbeat n) := by
  intro _
  have hd := decodeNumber_decBytes .msgHeartbeat n (rest := []) (by simp)
  have hb : decodeBytes (heartbeatHead ++ decBytes n) = decodeMessage (heartbeatHead ++ decBytes n) := rfl
  simp only [List.append_nil] at hd
  simp only [decode, encode, heartbeatBytes, hb, decodeMessage, stripWord_append, hd]

theorem msgReply (n : Nat) : Statement (.msgReply n) := by
  intro _
  have hd := decodeNumber_decBytes .msgReply n (rest := []) (by simp)
  have hb : decodeBytes (replyHead ++ decBytes n) = decodeMessage (replyHead ++ decBytes n) := rfl
  have hs : stripWord heartbeatHead (replyHead ++ decBytes n) = none := rfl
  simp only [List.append_nil] at hd
  simp only [decode, encode, replyBytes, hb, decodeMessage, hs, stripWord_append, hd]

theorem validate : Statement .validate := fun _ => rfl

theorem setPinA1 : Statement .setPinA1 := fun _ => rfl

theorem setPinB1 : Statement .setPinB1 := fun _ => rfl

theorem setIndOn3 : Statement .setIndOn3 := fun _ => rfl

theorem delaySettle4 : Statement .delaySettle4 := fun _ => rfl

theorem sendQv : Statement .sendQv := fun _ => rfl

theorem delayFrame6 : Statement .delayFrame6 := fun _ => rfl

theorem readAvailRbuf7 : Statement .readAvailRbuf7 := fun _ => rfl

theorem logHexQueryVersion : Statement .logHexQueryVersion := fun _ => rfl

theorem sendRc9 : Statement .sendRc9 := fun _ => rfl

theorem delayFrame10 : Statement .delayFrame10 := fun _ => rfl

theorem readAvailRbuf11 : Statement .readAvailRbuf11 := fun _ => rfl

theorem logHexReadOld : Statement .logHexReadOld := fun _ => rfl

theorem sendWc : Statement .sendWc := fun _ => rfl

theorem delayFrame14 : Statement .delayFrame14 := fun _ => rfl

theorem readAvailRbuf15 : Statement .readAvailRbuf15 := fun _ => rfl

theorem logHexWriteNew : Statement .logHexWriteNew := fun _ => rfl

theorem sendRc17 : Statement .sendRc17 := fun _ => rfl

theorem delayFrame18 : Statement .delayFrame18 := fun _ => rfl

theorem readAvailRbuf19 : Statement .readAvailRbuf19 := fun _ => rfl

theorem logHexReadBack : Statement .logHexReadBack := fun _ => rfl

theorem setPinA0 : Statement .setPinA0 := fun _ => rfl

theorem setPinB0 : Statement .setPinB0 := fun _ => rfl

theorem setIndOff23 : Statement .setIndOff23 := fun _ => rfl

theorem delaySettle24 : Statement .delaySettle24 := fun _ => rfl

theorem loopInit : Statement .loopInit := fun _ => rfl

theorem tick : Statement .tick := fun _ => rfl

theorem pollTPoll : Statement .pollTPoll := fun _ => rfl

theorem branchHit : Statement .branchHit := fun _ => rfl

theorem readAvailInbound : Statement .readAvailInbound := fun _ => rfl

theorem setIndOn30 : Statement .setIndOn30 := fun _ => rfl

theorem sendReply : Statement .sendReply := fun _ => rfl

theorem logAct : Statement .logAct := fun _ => rfl

theorem setIndOff33 : Statement .setIndOff33 := fun _ => rfl

theorem sendHeartbeat : Statement .sendHeartbeat := fun _ => rfl

theorem logDot : Statement .logDot := fun _ => rfl

end Sys2Proof.Laws.RoundTrip
end

