-- ==== Sys2Proof/Laws/Text.lean ====
section
/-! SUPPORT. What `DECODE` does with characters and failing sequences, said once. -/

namespace Sys2Proof.Machine

/-- The byte 0xFF, which begins no character, fails by itself. -/
@[simp] theorem utf8Pieces_ff (bs : List Byte) : utf8Pieces none (0xFF#8 :: bs) = none :: utf8Pieces none bs := by
  simp [utf8Pieces, utf8Next, utf8Start]

/-- Every byte leaves a piece: a byte read and a character begun are never dropped. -/
theorem utf8Pieces_ne_nil (pending : Option Utf8Pending) (bs : List Byte) (h : bs ≠ [] ∨ pending ≠ none) :
    utf8Pieces pending bs ≠ [] := by
  induction bs generalizing pending with
  | nil => cases pending <;> simp_all [utf8Pieces]
  | cons b bs ih =>
    intro hn
    simp only [utf8Pieces, List.append_eq_nil_iff] at hn
    refine ih _ (.inr ?_) hn.2
    have h1 := hn.1
    revert h1
    unfold utf8Next
    split
    · unfold utf8Start; split_ifs <;> simp
    · split_ifs <;> simp

/-- What a character begun still admits are continuation bytes. -/
def awaitsContinuation : Option Utf8Pending → Prop
  | none => True
  | some u => 0x80 ≤ u.lo ∧ u.hi ≤ 0xBF

theorem utf8Start_awaitsContinuation (b : Nat) : awaitsContinuation (utf8Start b).2 := by
  unfold utf8Start; split_ifs <;> simp [awaitsContinuation]

theorem utf8Next_awaitsContinuation (pending : Option Utf8Pending) (b : Nat) : awaitsContinuation (utf8Next pending b).2 := by
  unfold utf8Next
  split
  · exact utf8Start_awaitsContinuation b
  · split_ifs
    · simp [awaitsContinuation]
    · simp [awaitsContinuation]
    · exact utf8Start_awaitsContinuation b

/-- Bytes that begin with no continuation byte are read by themselves, whatever stands before them. -/
theorem utf8Pieces_append (pending : Option Utf8Pending) (hp : awaitsContinuation pending) (bs cs : List Byte)
    (hc : ∀ b tl, cs = b :: tl → b.toNat < 0x80 ∨ 0xC0 ≤ b.toNat) :
    utf8Pieces pending (bs ++ cs) = utf8Pieces pending bs ++ utf8Pieces none cs := by
  induction bs generalizing pending with
  | cons b bs ih =>
    simp only [List.cons_append, utf8Pieces, ih _ (utf8Next_awaitsContinuation pending b.toNat), List.append_assoc]
  | nil =>
    cases pending with
    | none => cases cs <;> simp [utf8Pieces]
    | some u =>
      cases cs with
      | nil => simp [utf8Pieces]
      | cons b tl =>
        have hb := hc b tl rfl
        have hn : ¬(u.lo ≤ b.toNat ∧ b.toNat ≤ u.hi) := by
          have h1 := hp.1
          have h2 := hp.2
          omega
        simp [utf8Pieces, utf8Next, hn]

/-- Characters stand as they are in the default. -/
@[simp] theorem replaceFailures_chars (t : Text) (ps : List (Option Char)) :
    replaceFailures (t.map some ++ ps) = t ++ replaceFailures ps := by
  simp [replaceFailures, Function.comp_def]

/-- Characters stand as they are in any other decoding, and end a run. -/
@[simp] theorem replaceRuns_chars (text : Nat → Text) (inRun : Bool) (n : Nat) (t : Text) (ps : List (Option Char)) :
    replaceRuns text inRun n (t.map some ++ ps) = t ++ replaceRuns text (inRun && t.isEmpty) n ps := by
  induction t generalizing inRun with
  | nil => simp
  | cons c t ih => simp [replaceRuns, ih]

end Sys2Proof.Machine
end

