-- ==== Sys2Proof/Tests/Slice0.lean ====
section
/-! SUPPORT. The model's own tests. The expected results are the rules' own examples and spec/95_test_vectors.md, named at each
test; the `witness_` theorems show concrete inputs that meet the hypotheses of the statements, at the ends of their ranges. -/

open Sys2Proof Sys2Proof.Machine

namespace Sys2Proof.Tests

/-! ## Small states and readers -/

/-- The parameter set P-920 of 95_test_vectors.md, every element at its reset value but the pc. -/
def testAt (pc : Nat) : State := { State.initial Params.p920 with pc := pc }

/-- P-920 with another frequency and air rate. -/
def testParams (f r : Int) : Params := { Params.p920 with freqMHz := f, airRateBps := r }

/-- P-920 on a platform whose pin writes can fail. -/
def testFailing (pc : Nat) : State :=
  { State.initial { Params.p920 with pinWriteCanFail := true } with pc := pc }

/-- The next state, where the outcome is one. -/
def nextOf : Host.Outcome State Fault Refusal → Option State
  | .next s => some s
  | .fault _ => none
  | .refused _ => none

/-- The reason of a refusal. -/
def refusalOf : Host.Outcome State Fault Refusal → Option Refusal
  | .refused r => some r
  | .next _ => none
  | .fault _ => none

/-- What the decoder reads. -/
def reads (e : Encoding) : Option Instr := (decode e).toOption

/-- Why the decoder refuses. -/
def refuses (e : Encoding) : Option DecodeError :=
  match decode e with
  | .ok _ => none
  | .error r => some r

/-- What a step of an instruction adds to an empty trace. -/
def emits (i : Instr) (s : State) : Option (List (Event × Nat)) := (nextOf (exec i { s with trace := [] })).map (·.trace)

/-! ## Well-formedness: an ill-formed term for each check (30_encoding.md R75, R81) -/

theorem test_channel_below_range_is_ill_formed :
    (Instr.frameWc 0xFFFF#16 .bps300 52#8 false .pushPull 0#3 true .dbm30).wellFormed = false := by decide

theorem test_channel_above_range_is_ill_formed :
    (Instr.frameWc 0xFFFF#16 .bps300 67#8 false .pushPull 0#3 true .dbm30).wellFormed = false := by decide

theorem test_channel_ends_are_well_formed :
    (Instr.frameWc 0xFFFF#16 .bps300 53#8 false .pushPull 0#3 true .dbm30).wellFormed = true ∧
    (Instr.frameWc 0xFFFF#16 .bps300 66#8 false .pushPull 0#3 true .dbm30).wellFormed = true := by decide

theorem test_target_pattern_is_no_reserved_one :
    (Instr.pinsReserved .zero .zero).wellFormed = false ∧ (Instr.pinsReserved .one .one).wellFormed = false ∧
    (Instr.pinsReserved .zero .one).wellFormed = true ∧ (Instr.pinsReserved .one .zero).wellFormed = true := by decide

/-! ## Decoding: words written out bit by bit -/

/-- R71. -/
theorem test_decode_frame_qv : reads (.bytes [0b11000011#8, 0b11000011#8, 0b11000011#8]) = some .frameQv := by decide

/-- R72. -/
theorem test_decode_frame_rc : reads (.bytes [0b11000001#8, 0b11000001#8, 0b11000001#8]) = some .frameRc := by decide

/-- R73, and the first row of V13: C2 FF FF 18 3A 44. -/
theorem test_decode_frame_wc :
    reads (.bytes [0b11000010#8, 0b11111111#8, 0b11111111#8, 0b00011000#8, 0b00111010#8, 0b01000100#8]) =
      some (.frameWc 0xFFFF#16 .bps300 58#8 false .pushPull 0#3 true .dbm30) := by decide

/-- The second row of V13: C2 AA AA 1D 35 83. -/
theorem test_decode_frame_wc_other_ends :
    reads (.bytes [0xC2#8, 0xAA#8, 0xAA#8, 0b00011101#8, 0x35#8, 0b10000011#8]) =
      some (.frameWc 0xAAAA#16 .bps19200 53#8 true .openDrain 0#3 false .dbm21) := by decide

/-- V13's last row checks the byte order: the address 0x00FF is sent 00 FF. -/
theorem test_encode_frame_wc_byte_order :
    encode (.frameWc 0x00FF#16 .bps1200 54#8 false .openDrain 0#3 false .dbm30) =
      .bytes [0xC2#8, 0x00#8, 0xFF#8, 0x19#8, 0x36#8, 0x00#8] := by decide

/-- R80, R81. -/
theorem test_decode_pins :
    reads (.pins .zero .zero) = some .pinsNormal ∧ reads (.pins .one .one) = some .pinsConfiguration ∧
    reads (.pins .zero .one) = some (.pinsReserved .zero .one) ∧
    reads (.pins .one .zero) = some (.pinsReserved .one .zero) := by decide

/-- R82: `radio 10` is 72 61 64 69 6F 20 31 30 (V20). -/
theorem test_decode_heartbeat :
    reads (.bytes [0b01110010#8, 0b01100001#8, 0b01100100#8, 0b01101001#8, 0b01101111#8, 0b00100000#8, 0x31#8, 0x30#8]) =
      some (.msgHeartbeat 10) := by decide

/-- R82: `twoway 2` is 74 77 6F 77 61 79 20 32 (V20). -/
theorem test_decode_reply :
    reads (.bytes [0b01110100#8, 0b01110111#8, 0b01101111#8, 0b01110111#8, 0b01100001#8, 0b01111001#8, 0b00100000#8, 0x32#8]) =
      some (.msgReply 2) := by decide

/-- R150, pc 0 to 12. -/
theorem test_decode_micro_ops_first :
    (List.range 13).map (fun pc => reads (.micro pc)) =
      [some .validate, some .setPinA1, some .setPinB1, some .setIndOn3, some .delaySettle4, some .sendQv, some .delayFrame6,
        some .readAvailRbuf7, some .logHexQueryVersion, some .sendRc9, some .delayFrame10, some .readAvailRbuf11,
        some .logHexReadOld] := by decide

/-- R150, pc 13 to 25. -/
theorem test_decode_micro_ops_middle :
    (List.range 13).map (fun k => reads (.micro (13 + k))) =
      [some .sendWc, some .delayFrame14, some .readAvailRbuf15, some .logHexWriteNew, some .sendRc17, some .delayFrame18,
        some .readAvailRbuf19, some .logHexReadBack, some .setPinA0, some .setPinB0, some .setIndOff23, some .delaySettle24,
        some .loopInit] := by decide

/-- R150, pc 26 to 35, and no entry after. -/
theorem test_decode_micro_ops_last :
    (List.range 11).map (fun k => reads (.micro (26 + k))) =
      [some .tick, some .pollTPoll, some .branchHit, some .readAvailInbound, some .setIndOn30, some .sendReply, some .logAct,
        some .setIndOff33, some .sendHeartbeat, some .logDot, none] := by decide

/-- What is no encoding is refused by name (R71, R76, R77, R79, R82, R84). -/
theorem test_decode_refuses :
    refuses (.bytes []) = some .empty ∧
    refuses (.bytes [0xC0#8, 0xC0#8, 0xC0#8]) = some .unknownHeader ∧
    refuses (.bytes [0xC4#8, 0xC4#8, 0xC4#8]) = some .unknownHeader ∧
    refuses (.bytes [0xC3#8, 0xC3#8]) = some .truncated ∧
    refuses (.bytes [0xC3#8, 0xC3#8, 0xC1#8]) = some .unequalHeader ∧
    refuses (.bytes [0xC2#8, 0#8, 0#8, 0x38#8, 0x3A#8, 0#8]) = some .notEightN1At9600 ∧
    refuses (.bytes [0xC2#8, 0#8, 0#8, 0x1E#8, 0x3A#8, 0#8]) = some .reservedAirRate ∧
    refuses (.bytes (heartbeatHead)) = some .noDigits ∧
    refuses (.bytes (heartbeatHead ++ [0x30#8, 0x31#8])) = some .leadingZero ∧
    refuses (.bytes [0xC1#8, 0xC1#8, 0xC1#8, 0xC1#8]) = some .trailingBytes ∧
    refuses (.micro 36) = some .noMicroOp := by decide

/-- The table's numbering (log entry 14): the first byte of a frame is the number's most significant one. -/
theorem test_decode_table_words :
    decodeTableWord 24 0xC3C3C3 = some .frameQv ∧ decodeTableWord 24 0xC1C1C1 = some .frameRc ∧
    decodeTableWord 48 0xC2FFFF183A44 = some (.frameWc 0xFFFF#16 .bps300 58#8 false .pushPull 0#3 true .dbm30) ∧
    decodeTableWord 8 0 = some .pinsNormal ∧ decodeTableWord 8 3 = some .pinsConfiguration ∧
    decodeTableWord 2 1 = some (.pinsReserved .zero .one) ∧ decodeTableWord 48 0x726164696F20 = some (.msgHeartbeat 0) ∧
    decodeTableWord 56 0x74776F77617920 = some (.msgReply 0) ∧ decodeTableWord 0 25 = some .loopInit ∧
    decodeTableWord 24 0xC0C0C0 = none := by decide

/-! ## The codec -/

/-- V10. -/
theorem test_frequency_check_and_channel :
    [914, 915, 928, 929, 868, 862, 0, -1].map freqOk = [false, true, true, false, false, false, false, false] ∧
    [915, 916, 920, 927, 928].map channelByte = [0x35#8, 0x36#8, 0x3A#8, 0x41#8, 0x42#8] := by decide

/-- V11. -/
theorem test_air_rate_check_and_sped :
    ([300, 1200, 2400, 4800, 9600, 19200].map fun r => (airRateOf r).map spedByte) =
      [some 0x18#8, some 0x19#8, some 0x1A#8, some 0x1B#8, some 0x1C#8, some 0x1D#8] ∧
    [600, 0, 38400, 115200, -300].map rateOk = [false, false, false, false, false] := by decide

/-- V12. -/
theorem test_option_byte :
    optionByte false .pushPull 0#3 true .dbm30 = 0x44#8 ∧ optionByte false .openDrain 0#3 false .dbm30 = 0x00#8 ∧
    optionByte true .openDrain 0#3 false .dbm21 = 0x83#8 ∧ optionByte true .pushPull 7#3 true .dbm21 = 0xFF#8 ∧
    optionByte false .pushPull 0#3 true .dbm24 = 0x46#8 ∧ optionByte false .pushPull 2#3 true .dbm30 = 0x54#8 := by decide

/-- V14, first row. -/
theorem test_validate_builds_the_image :
    (nextOf (exec .validate State.reset)).map (fun s => (s.cfg, s.pc, s.err, s.trace)) =
      some (some ⟨0xFF#8, 0xFF#8, 0x18#8, 0x3A#8, 0x44#8⟩, 1, .none, []) := by decide

/-- V14, second row. -/
theorem test_validate_fails_on_frequency :
    (nextOf (exec .validate (State.resetWith (testParams 914 300)))).map (fun s => (s.err.number, s.cfg, s.trace)) =
      some (1, none, [(.log (.logError .outOfRangeFrequency), 0)]) := by decide

/-- V14, third row. -/
theorem test_validate_fails_on_air_rate :
    (nextOf (exec .validate (State.resetWith (testParams 920 600)))).map (fun s => (s.run, s.pc, s.err.number)) =
      some (.error, 0, 2) := by decide

/-- V14, fourth row: "1 or 2 (a draw)". -/
theorem test_validate_fails_twice :
    ∃ t, exec .validate (State.resetWith (testParams 929 38400)) = .next t ∧ t.run = .error ∧
      (t.err = .outOfRangeFrequency ∨ t.err = .unknownAirRate) ∧ t.trace = [(.log (.logError t.err), 0)] := by
  change ∃ t, Host.Outcome.next ((State.resetWith (testParams 929 38400)).drawn.raiseConfigurationError
    (if Config.reportsFrequency 0 then .outOfRangeFrequency else .unknownAirRate)) = .next t ∧ _
  cases Config.reportsFrequency 0
  · exact ⟨_, rfl, by decide⟩
  · exact ⟨_, rfl, by decide⟩

/-- R132, R134. -/
theorem test_query_frames :
    emits .sendQv { testAt 5 with now := 50 } = some [(.tx [0xC3#8, 0xC3#8, 0xC3#8], 50)] ∧
    emits .sendRc9 { testAt 9 with now := 100 } = some [(.tx [0xC1#8, 0xC1#8, 0xC1#8], 100)] ∧
    (nextOf (exec .sendRc17 (testAt 17))).map (·.pc) = some 18 := by decide

/-- R133. -/
theorem test_write_config_frame :
    emits .sendWc { testAt 13 with cfg := some ⟨0xFF#8, 0xFF#8, 0x18#8, 0x3A#8, 0x44#8⟩ } =
      some [(.tx [0xC2#8, 0xFF#8, 0xFF#8, 0x18#8, 0x3A#8, 0x44#8], 0)] ∧
    nextOf (exec .sendWc (testAt 13)) = none := by decide

/-! ## The mode controller -/

/-- R102's example, and a write of the level the line holds (20_memory.md R64). -/
theorem test_setpin :
    (nextOf (exec .setPinA1 (testAt 1))).map (fun s => (s.pinA, s.pinB, s.trace, s.pc)) =
      some (some .one, none, [(.pin .a .one, 0)], 2) ∧
    emits .setPinB0 { testAt 22 with pinB := some .zero } = some [(.pin .b .zero, 0)] := by decide

/-- V17, last row: where the draw is a fault, the latch and the pc are kept; where it is none, the line is written. -/
theorem test_setpin_draws :
    exec .setPinB0 (testFailing 22) = .next (
      if Config.pinWriteFails 0 then
        { testFailing 22 with
          run := .error, err := .pinWriteFault, draws := 1, trace := [(.log (.logError .pinWriteFault), 0)] }
      else { testFailing 22 with pinB := some .zero, pc := 23, draws := 1, trace := [(.pin .b .zero, 0)] }) := rfl

/-- R105's example. -/
theorem test_setind :
    (nextOf (exec .setIndOn3 (testAt 3))).map (fun s => (s.ind, s.trace, s.pc)) = some (some .on, [(.ind .on, 0)], 4) ∧
    emits .setIndOff33 { testAt 33 with ind := some .off } = some [(.ind .off, 0)] := by decide

/-- R106's example: armed at 0, no step at 49, completed at 50. -/
theorem test_settle_gate :
    (nextOf (exec .delaySettle4 (testAt 4))).map (fun s => (s.deadline, s.pc)) = some (some 50, 4) ∧
    ({ testAt 4 with deadline := some 50, now := 49 } : State).blockReady = false ∧
    (nextOf (step { testAt 4 with deadline := some 50, now := 50 })).map (fun s => (s.deadline, s.pc)) = some (none, 5) := by
  decide

/-- V15, V16: the mode as the two writes of a transition pass. -/
theorem test_modes :
    ({ testAt 2 with pinA := some .one } : State).mode = .unknown ∧
    ({ testAt 3 with pinA := some .one, pinB := some .one } : State).mode = .configuration ∧
    ({ testAt 22 with pinA := some .zero, pinB := some .one } : State).mode = .reserved ∧
    ({ testAt 23 with pinA := some .zero, pinB := some .zero } : State).mode = .normal := by decide

/-! ## The sequencer -/

/-- V18, third row: what was left from before is read with what arrived. -/
theorem test_response_read :
    (nextOf (exec .readAvailRbuf7 { testAt 7 with rx := [0xEE#8, 0x01#8] })).map (fun s => (s.rbuf, s.rx, s.pc)) =
      some ([0xEE#8, 0x01#8], [], 8) := by decide

/-- R153: an empty read is data. -/
theorem test_empty_response_read :
    (nextOf (exec .readAvailRbuf15 { testAt 15 with rbuf := [0x10#8] })).map (fun s => (s.rbuf, s.pc)) = some ([], 16) := by decide

/-- R156's example, and its rendering (`c00a`, and the empty string). -/
theorem test_response_log :
    emits .logHexQueryVersion { testAt 8 with rbuf := [0xC3#8, 0x32#8] } =
      some [(.log (.logHex .queryVersion [0xC3#8, 0x32#8]), 0)] ∧
    emits .logHexReadBack (testAt 20) = some [(.log (.logHex .readBack []), 0)] ∧
    hexText [0xC0#8, 0x0A#8] = ['c', '0', '0', 'a'] ∧ hexText [] = [] := by decide

/-! ## The loop -/

/-- R181, R183, R185. -/
theorem test_loop_entry_and_tick :
    (nextOf (exec .loopInit { testAt 25 with cnt := 5, nlOwed := true })).map (fun s => (s.cnt, s.nlOwed, s.pc)) =
      some (0, false, 26) ∧
    (nextOf (exec .tick { testAt 26 with cnt := 2 })).map (fun s => (s.cnt, s.pc)) = some (3, 27) ∧
    (nextOf (exec .tick { testAt 26 with cnt := 5, cancel := true })).map (fun s => (s.cnt, s.pc, s.run)) =
      some (5, 26, .stopped) := by decide

/-- V22: data at the deadline gives true, none gives false, a wait of 0 may end at once; the poll consumes nothing. -/
theorem test_poll :
    (nextOf (exec .pollTPoll { testAt 27 with now := 300 })).map (·.deadline) = some (some 2300) ∧
    (nextOf (exec .pollTPoll { testAt 27 with deadline := some 2300, now := 2300, rx := [1#8] })).map
      (fun s => (s.hit, s.rx, s.pc)) = some (true, [1#8], 28) ∧
    (nextOf (exec .pollTPoll { testAt 27 with deadline := some 2300, now := 2300, hit := true })).map
      (fun s => (s.hit, s.deadline, s.pc)) = some (false, none, 28) ∧
    ({ testAt 27 with deadline := some 2300, now := 2299 } : State).blockReady = false ∧
    ({ testAt 27 with deadline := some 300, now := 300 } : State).blockReady = true := by decide

/-- R186, R187. -/
theorem test_branch_and_read :
    (nextOf (exec .branchHit { testAt 28 with hit := true })).map (·.pc) = some 29 ∧
    (nextOf (exec .branchHit (testAt 28))).map (·.pc) = some 33 ∧
    (nextOf (exec .readAvailInbound { testAt 29 with rx := [0x68#8, 0x69#8] })).map (fun s => (s.inbound, s.rx, s.pc)) =
      some ([0x68#8, 0x69#8], [], 30) := by decide

/-- V20: `twoway 100` and `radio 10`, with no terminator. -/
theorem test_messages :
    emits .sendReply { testAt 31 with cnt := 100 } =
      some [(.tx [0x74#8, 0x77#8, 0x6F#8, 0x77#8, 0x61#8, 0x79#8, 0x20#8, 0x31#8, 0x30#8, 0x30#8], 0)] ∧
    emits .sendHeartbeat { testAt 34 with cnt := 10 } =
      some [(.tx [0x72#8, 0x61#8, 0x64#8, 0x69#8, 0x6F#8, 0x20#8, 0x31#8, 0x30#8], 0)] := by decide

/-- V20, third row: the newline owed comes first. -/
theorem test_activity_log :
    (nextOf (exec .logAct { testAt 32 with nlOwed := true, inbound := [0x68#8, 0x69#8], cnt := 2 })).map
      (fun s => (s.trace, s.nlOwed, s.pc)) =
      some ([(.log .logNewline, 0), (.log (.logActivity ['h', 'i'] 2), 0)], false, 26) ∧
    emits .logAct { testAt 32 with inbound := [0xFF#8], cnt := 100 } = some [(.log (.logActivity ['\uFFFD'] 100), 0)] := by
  decide

/-- R194. -/
theorem test_dot_log :
    (nextOf (exec .logDot (testAt 35))).map (fun s => (s.trace, s.nlOwed, s.pc)) = some ([(.log .logDot, 0)], true, 26) := by
  decide

/-- Valid UTF-8 is decoded (R196); a cut sequence is one U+FFFD. -/
theorem test_default_decode :
    decodeText .utf8Replacement [0xC3#8, 0xA9#8, 0xE2#8, 0x82#8, 0xAC#8, 0xF0#8, 0x9F#8, 0x98#8, 0x80#8] =
      ['\u00E9', '\u20AC', Char.ofNat 0x1F600] ∧
    decodeText .utf8Replacement [0x41#8, 0xE2#8, 0x82#8] = ['A', '\uFFFD'] := by decide

/-- A `DECODE` other than the default decodes what is valid and keeps something of each run of failing bytes (R196). -/
theorem test_other_decode :
    decodeText (.other 7) [0xC3#8, 0xA9#8, 0x41#8] = ['\u00E9', 'A'] ∧
    ∀ bs, bs = [0x41#8, 0xFF#8, 0xFE#8, 0x42#8, 0x80#8] →
      decodeText (.other 7) bs =
        'A' :: (Config.otherLossy 7 bs 0).1 :: ((Config.otherLossy 7 bs 0).2 ++
          'B' :: (Config.otherLossy 7 bs 1).1 :: ((Config.otherLossy 7 bs 1).2 ++ [])) := by
  refine ⟨by decide, ?_⟩
  rintro bs rfl
  rfl

/-! ## Rows as encodings, reset, agents -/

/-- A frame is sent outside the settle windows and refused inside them (70_reset_and_hazards.md R243). -/
theorem test_frame_rows :
    emits .frameRc (testAt 9) = some [(.tx [0xC1#8, 0xC1#8, 0xC1#8], 0)] ∧
    refusalOf (exec .frameRc (testAt 4)) = some .settleWindow ∧
    emits (.msgReply 2) (testAt 31) =
      some [(.tx [0x74#8, 0x77#8, 0x6F#8, 0x77#8, 0x61#8, 0x79#8, 0x20#8, 0x32#8], 0)] := by decide

/-- R243 by the trace: 49 ms after a pin write a frame is refused at any pc, 50 ms after it is sent. -/
theorem test_frame_row_after_pin_write :
    refusalOf (exec .frameQv { testAt 0 with now := 59, trace := [(.pin .b .one, 10)] }) = some .settleWindow ∧
    (nextOf (exec .frameQv { testAt 0 with now := 60, trace := [(.pin .b .one, 10)] })).map (fun s => txWrites s.trace) =
      some [[0xC3#8, 0xC3#8, 0xC3#8]] := by decide

/-- A pattern row is followed by `T_SETTLE_MS` turns of time (R243), and a frame asked for next waits for them. -/
theorem test_pin_row_settles :
    (nextOf (exec .pinsConfiguration (testAt 0))).map (·.agenda) = some (List.replicate 50 .time) ∧
    (nextOf (Sys2Proof.core.run 2 { testAt 0 with agenda := [.issue 8 3, .issue 24 0xC3C3C3] })).map
      (fun s => (s.now, txWrites s.trace)) = some (1, []) := by decide

/-- A probe runs no micro-operation: not `VALIDATE` from the loop (R159), not `SEND QV` in a settle window (R243). -/
theorem test_probe_refuses_micro_ops :
    refusalOf (step { testAt 30 with agenda := [.issue 0 0] }) = some .selectedByPc ∧
    refusalOf (step { testAt 30 with agenda := [.issue 6 1] }) = some .selectedByPc ∧
    refusalOf (step { testAt 3 with agenda := [.issue 0 5] }) = some .selectedByPc ∧
    refusalOf (step { testAt 3 with agenda := [.issue 0 7] }) = some .selectedByPc := by decide

/-- R80, R104, R159. -/
theorem test_pin_rows :
    emits .pinsConfiguration (testAt 0) = some [(.pin .a .one, 0), (.pin .b .one, 0)] ∧
    refusalOf (exec .pinsConfiguration (testAt 25)) = some .reentry ∧
    (nextOf (exec .pinsNormal (testAt 30))).map (·.mode) = some .normal ∧
    refusalOf (exec (.pinsReserved .zero .one) (testAt 0)) = some .reservedMode := by decide

/-- V23: no PinAssignment, equal pins, and a pin that is no GPIO output. -/
theorem test_reset_checks_the_pins :
    (State.resetWith { Params.p920 with pinAssignment := none }).err.number = 3 ∧
    ((State.resetWith { Params.p920 with gpioOutputs := [2] }).run,
      (State.resetWith { Params.p920 with gpioOutputs := [2] }).trace) =
      (.error, [(.log (.logError .pinAssignment), 0)]) ∧
    (State.resetWith { Params.p920 with pinAssignment := Params.p920.pinAssignment.map fun pa =>
      { pa with pinB := pa.pinA } }).run = .error ∧
    (State.reset.run, State.reset.pc, State.reset.trace) = (.run, 0, []) := by decide

/-- The word placed is what the very next step runs. -/
theorem test_placed_words_run :
    (nextOf (step (State.reset.withFetchWord 24 0xC3C3C3))).map (·.trace) = some [(.tx [0xC3#8, 0xC3#8, 0xC3#8], 0)] ∧
    (nextOf (step (State.reset.withFetchWord 8 3))).map (·.pinB) = some (some .one) ∧
    (nextOf (step (State.reset.withFetchWord 0 25))).map (·.pc) = some 26 ∧
    refusalOf (step (State.reset.withFetchWord 8 1)) = some .reservedMode ∧
    refusalOf (step (State.reset.withFetchWord 24 0xC0C0C0)) = some .notAnEncoding := by decide

/-- A scripted event waits for its clock value (30_encoding.md R92) and stands before the block's step at it. -/
theorem test_environment_script :
    (nextOf (step { testAt 27 with deadline := some 9, now := 7, agenda := [.env 8 (.moduleSend 1#8 [])] })).map
      (fun s => (s.now, s.rx, s.agenda.length)) = some (8, [], 1) ∧
    (nextOf (step { testAt 27 with deadline := some 9, now := 8, agenda := [.env 8 (.moduleSend 1#8 [])] })).map
      (fun s => (s.now, s.rx, s.agenda.length)) = some (8, [1#8], 0) := by decide

/-- R61, R249: 10 bit times a byte, 3.125 ms a query frame, 6.25 ms a Write-config frame. -/
theorem test_wire_time :
    lineBits 0xC1#8 = [false, true, false, false, false, false, false, true, true, true] ∧
    wireMicroseconds queryVersionFrame = 3125 ∧ wireMicroseconds (writeConfigFrame ⟨0#8, 0#8, 0#8, 0#8, 0#8⟩) = 6250 := by
  decide

/-! ## Witnesses: inputs that meet the hypotheses of the statements of Certificates/Slice0/Obligations.lean -/

/-- A state of the loop as a run reaches it: pc 34 at the first timeout tick of V24. -/
def testLoop : State :=
  { testAt 34 with
    pinA := some .zero, pinB := some .zero, ind := some .off, cnt := 1, now := 2300
    cfg := some ⟨0xFF#8, 0xFF#8, 0x18#8, 0x3A#8, 0x44#8⟩ }

/-- A state of the configuration phase as a run reaches it: pc 5 in V24. -/
def testConfiguration : State :=
  { testAt 5 with
    pinA := some .one, pinB := some .one, ind := some .on, now := 50
    cfg := some ⟨0xFF#8, 0xFF#8, 0x18#8, 0x3A#8, 0x44#8⟩ }

theorem witness_SentRowsAreReadBack :
    (∀ c ∈ [53#8, 66#8], (Instr.frameWc 0x1234#16 .bps9600 c true .openDrain 7#3 true .dbm21).wellFormed = true) ∧
    (Instr.msgHeartbeat 0).wellFormed = true ∧ encode (.msgHeartbeat 0) = .bytes (heartbeatBytes 0) ∧
    encode .frameRc = .bytes readConfigFrame ∧
    (decodeBytes [0xC1#8, 0xC1#8, 0xC1#8, 0x30#8]).toOption = some (.frameRc, [0x30#8]) ∧
    (∀ b tl, [0x2F#8, 0x30#8] = b :: tl → digitValue b = none) ∧ (∀ b tl, [0x3A#8] = b :: tl → digitValue b = none) := by
  refine ⟨by decide, by decide, rfl, rfl, by decide, ?_, ?_⟩ <;> rintro b tl ⟨⟩ <;> decide

theorem witness_ReadRowsReencode_and_FirstByteTellsLength :
    (decodeBytes [0xC3#8, 0xC3#8, 0xC3#8, 0x72#8]).toOption = some (.frameQv, [0x72#8]) ∧
    (decodeBytes [0xC1#8, 0xC1#8, 0xC1#8]).toOption = some (.frameRc, []) ∧
    (decodeBytes [0xC2#8, 0xFF#8, 0xFF#8, 0x18#8, 0x3A#8, 0x44#8, 0x00#8]).toOption =
      some (.frameWc 0xFFFF#16 .bps300 58#8 false .pushPull 0#3 true .dbm30, [0x00#8]) ∧
    (decodeBytes [0xC2#8, 0xFF#8, 0xFF#8, 0x18#8, 0x06#8, 0x44#8]).toOption =
      some (.frameWc 0xFFFF#16 .bps300 6#8 false .pushPull 0#3 true .dbm30, []) ∧
    (decodeBytes [0x72#8, 0x61#8, 0x64#8, 0x69#8, 0x6F#8, 0x20#8, 0x39#8, 0xC1#8]).toOption = some (.msgHeartbeat 9, [0xC1#8]) ∧
    (decodeBytes [0x74#8, 0x77#8, 0x6F#8, 0x77#8, 0x61#8, 0x79#8, 0x20#8, 0x30#8]).toOption = some (.msgReply 0, []) := by
  decide

theorem witness_MicroOpsAreSelectedByPc :
    microOpAt 0 = some .validate ∧ encode .logDot = .micro 35 ∧ microOpAt 36 = none := by decide

theorem witness_DecimalDigits : decBytes 0 = [0x30#8] ∧ decBytes 9 = [0x39#8] ∧ decBytes 10 = [0x31#8, 0x30#8] := by decide

theorem witness_WriteConfigFrameLayout :
    (freqOk (testParams 915 300).freqMHz = true ∧ airRateOf (testParams 915 300).airRateBps = some .bps300) ∧
    (freqOk (testParams 928 19200).freqMHz = true ∧ airRateOf (testParams 928 19200).airRateBps = some .bps19200) := by decide

theorem witness_FrequencyBounds_and_ChannelByteExact :
    freqOk 915 = true ∧ freqOk 928 = true ∧ channelByte 915 = 53#8 ∧ channelByte 928 = 66#8 := by decide

theorem witness_AirRateCodes :
    rateOk 300 = true ∧ rateOk 19200 = true ∧ [300, 1200, 2400, 4800, 9600, 19200].map airRateOf =
      [some .bps300, some .bps1200, some .bps2400, some .bps4800, some .bps9600, some .bps19200] := by decide

theorem witness_ValidateOutcome :
    (freqOk (testParams 915 19200).freqMHz = true ∧ airRateOf (testParams 915 19200).airRateBps = some .bps19200) ∧
    (freqOk (testParams 914 300).freqMHz = false ∧ rateOk (testParams 914 300).airRateBps = true) ∧
    (freqOk (testParams 928 301).freqMHz = true ∧ rateOk (testParams 928 301).airRateBps = false) ∧
    (freqOk (testParams 929 299).freqMHz = false ∧ rateOk (testParams 929 299).airRateBps = false) := by decide

theorem witness_WriteConfigFrameIsSent : testConfiguration.cfg ≠ none ∧ State.reset.cfg = none := by decide

theorem witness_SetPinWritesItsLine_and_SetPinMayFail :
    (testAt 1).params.pinWriteCanFail = false ∧ (testFailing 22).params.pinWriteCanFail = true ∧
    (Instr.setPinB0 = .setPinB0 ∧ Line.b = .b ∧ Level.zero = .zero) := by decide

theorem witness_TargetPatternsAreDriven_and_MayFail :
    (testAt 24).params.pinWriteCanFail = false ∧ (testAt 24).pc < 25 ∧ 25 ≤ (testAt 25).pc ∧
    (testFailing 24).params.pinWriteCanFail = true ∧ (testFailing 24).pc < 25 := by decide

theorem witness_DelayGates :
    (testAt 4).deadline = none ∧
    (({ testAt 4 with deadline := some 50, now := 50 } : State).deadline = some 50 ∧ 50 ≤ 50) ∧
    (({ testAt 18 with deadline := some 250, now := 249 } : State).deadline = some 250 ∧ 249 < 250 ∧
      microOpAt 18 = some .delayFrame18) ∧
    ({ testAt 18 with deadline := some 250, now := 249, agenda := [.env 0 (.moduleSend 1#8 [])] } : State).agenda =
      .env 0 (.moduleSend 1#8 []) :: [] := by decide

theorem witness_IndicatorIsSet :
    ({ Params.p920 with pinAssignment := Params.p920.pinAssignment.map fun pa => { pa with indPin := none } } : Params).indicatorKind =
      .none := by decide

theorem witness_FatalEntry :
    (State.resetWith (testParams 914 300)).run = .run ∧ (State.resetWith (testParams 914 300)).nextTurnInRun = true ∧
    (nextOf (step (State.resetWith (testParams 914 300)))).map (·.run) = some .error := by decide

theorem witness_TransitionsRun :
    ∀ pc ∈ [1, 21], (testAt pc).run = .run ∧ (testAt pc).pc = pc ∧ (testAt pc).deadline = none ∧ (testAt pc).agenda = [] ∧
      (testAt pc).params.pinWriteCanFail = false := by decide

theorem witness_ExchangeRun :
    (∀ pc ∈ [5, 9, 13, 17], ({ testConfiguration with pc := pc } : State).run = .run ∧
      ({ testConfiguration with pc := pc } : State).deadline = none ∧
      ({ testConfiguration with pc := pc } : State).agenda = [] ∧ ({ testConfiguration with pc := pc } : State).pc = pc) ∧
    testConfiguration.cfg = some ⟨0xFF#8, 0xFF#8, 0x18#8, 0x3A#8, 0x44#8⟩ := by decide

theorem witness_HexTextIsFaithful : hexText [0x0F#8, 0xF0#8] = ['0', 'f', 'f', '0'] := by decide

theorem witness_NoBranchingOnFailure :
    (1 ≤ (testAt 1).pc ∧ (testAt 24).pc ≤ 24 ∧ (testAt 1).nextTurnInRun = true ∧ (testAt 24).nextTurnInRun = true) ∧
    (nextOf (step (testAt 1))).isSome = true ∧ (nextOf (step (testAt 24))).isSome = true := by decide

theorem witness_NoReentry :
    25 ≤ (testAt 25).pc ∧ (testAt 35).pc ≤ 35 ∧ (testAt 25).nextTurnIsReset = false ∧ (testAt 35).nextTurnIsReset = false ∧
    (nextOf (step (testAt 25))).map (·.pc) = some 26 ∧ (nextOf (step (testAt 26))).map (·.pc) = some 27 ∧
    (nextOf (step (testAt 35))).map (·.pc) = some 26 ∧
    (({ testAt 25 with agenda := [.issue 8 0] } : State).nextTurnIsReset = false ∧
      (nextOf (step { testAt 25 with agenda := [.issue 8 0] })).map (·.pinB) = some (some .zero)) ∧
    (({ testAt 35 with agenda := [.issue 0 35] } : State).run = .run ∧ decodeTableWord 0 35 = some .logDot ∧
      encode .logDot = .micro 35) := by decide

theorem witness_TickCountsOrStops : (testAt 26).cancel = false ∧ ({ testAt 26 with cancel := true } : State).cancel = true := by
  decide

theorem witness_PollWaitsForData :
    (testAt 27).deadline = none ∧
    (({ testAt 27 with deadline := some 9, rx := [0#8] } : State).deadline = some 9 ∧
      ({ testAt 27 with deadline := some 9, rx := [0#8] } : State).rx ≠ []) ∧
    (({ testAt 27 with deadline := some 9, now := 9 } : State).rx = [] ∧ 9 ≤ 9) ∧
    (({ testAt 27 with deadline := some 9, now := 8 } : State).rx = [] ∧ 8 < 9 ∧ (testAt 27).pc = 27) := by decide

theorem witness_BranchOnHit : (testAt 28).hit = false ∧ ({ testAt 28 with hit := true } : State).hit = true := by decide

theorem witness_TicksRun :
    ((testAt 26).run = .run ∧ (testAt 26).pc = 26 ∧ (testAt 26).deadline = none ∧ (testAt 26).agenda = [] ∧
      (testAt 26).cancel = false ∧ (testAt 26).rx = []) ∧
    (({ testAt 26 with rx := [0x68#8] } : State).run = .run ∧ ({ testAt 26 with rx := [0x68#8] } : State).pc = 26 ∧
      ({ testAt 26 with rx := [0x68#8] } : State).deadline = none ∧ ({ testAt 26 with rx := [0x68#8] } : State).agenda = [] ∧
      ({ testAt 26 with rx := [0x68#8] } : State).cancel = false ∧ ({ testAt 26 with rx := [0x68#8] } : State).rx ≠ []) := by
  decide

/-- The ends of the bytes that begin no sequence, cut sequences, and an input cut into texts and failing stretches. -/
theorem witness_DecodeReadsUtf8AndReplaces :
    ([0x80#8] : List Byte) ≠ [] ∧ textUtf8 ['\u00E9'] = [0xC3#8, 0xA9#8] ∧
    (∀ p ∈ [(([0xE2#8, 0x82#8] : List Byte), (['A'] : Text)), ([0x80#8, 0xFF#8], ['\u00E9'])], p.1 ≠ [] ∧ p.2 ≠ []) ∧
    (charUtf8 '\u20AC' = [0xE2#8] ++ [0x82#8, 0xAC#8] ∧ charUtf8 '\u20AC' = [0xE2#8, 0x82#8] ++ [0xAC#8]) ∧
    (∀ b ∈ [0x80#8, 0xC1#8, 0xF5#8, 0xFF#8], (0x80 ≤ b.toNat ∧ b.toNat ≤ 0xC1 ∨ 0xF5 ≤ b.toNat) ∧
      decodeText .utf8Replacement [0xC3#8, 0xA9#8, b, 0x41#8] = ['\u00E9', '\uFFFD', 'A']) := by decide

/-- The last pin write exactly 50 ms ago, at the ends of the settled pcs. -/
theorem witness_EncodedBytesAreSent :
    ∀ pc ∈ [0, 5, 20, 25, 35],
      ({ testAt pc with now := 60, trace := [(.pin .b .one, 10)] } : State).settled = true ∧
      ∀ x ∈ ({ testAt pc with now := 60, trace := [(.pin .b .one, 10)] } : State).trace,
        x.1.isPin = true → x.2 + 50 ≤ ({ testAt pc with now := 60, trace := [(.pin .b .one, 10)] } : State).now := by decide

/-- The ends of the two windows, and a pin write 49 ms ago at a settled pc. -/
theorem witness_SettleWindowRefusesBytes :
    encode .frameQv = .bytes queryVersionFrame ∧
    (∀ pc ∈ [1, 4, 21, 24], 1 ≤ (testAt pc).pc ∧ (testAt pc).pc ≤ 4 ∨ 21 ≤ (testAt pc).pc ∧ (testAt pc).pc ≤ 24) ∧
    ((Event.pin .a .one, 10) ∈ ({ testAt 0 with now := 59, trace := [(.pin .a .one, 10)] } : State).trace ∧ 59 < 10 + 50) := by
  decide

theorem witness_StepRunsTheMicroOp :
    ({ testAt 18 with deadline := some 9, now := 9 } : State).blockReady = true ∧
    (microOpAt 27 = some .pollTPoll ∧ ({ testAt 27 with deadline := some 9, now := 8, rx := [0#8] } : State).blockReady = true) ∧
    (microOpAt (testAt 0).pc = some .validate ∧ (testAt 0).agenda = [] ∧ (testAt 0).blockReady = true) ∧
    (({ testAt 4 with deadline := some 1 } : State).agenda = [] ∧
      ({ testAt 4 with deadline := some 1 } : State).blockReady = false) ∧
    (({ testAt 35 with agenda := [.block] } : State).agenda = .block :: [] ∧
      ({ testAt 35 with agenda := [.block] } : State).blockReady = true) ∧
    ({ testAt 4 with deadline := some 1, agenda := [.block] } : State).blockReady = false := by decide

/-- A state whose settle delay before the loop ends at 1 ms, the cancel input set. -/
def testSettling : State := { testAt 24 with deadline := some 1, cancel := true }

/-- A complete execution: a millisecond, the delay's completion, `LOOPINIT`, `TICK`, which stops the block, and time. -/
def testExecution : Execution where
  states
    | 0 => testSettling
    | 1 => { testSettling with now := 1 }
    | 2 => { testSettling with now := 1, deadline := none, pc := 25 }
    | 3 => { testSettling with now := 1, deadline := none, pc := 26 }
    | k + 4 => { testSettling with now := k + 1, deadline := none, pc := 26, run := .stopped }
  turns
    | 0 => .time
    | 1 => .block
    | 2 => .block
    | 3 => .block
    | _ + 4 => .time

theorem witness_WaitsComplete :
    testExecution.Complete ∧ (testExecution.states 0).run = .run ∧ (testExecution.states 0).deadline = some 1 ∧
    waitMs (testExecution.states 0).params (testExecution.states 0).pc ≠ none := by
  refine ⟨⟨fun k => ?_, fun n => ⟨n + 4, Nat.le_succ n⟩, fun k => ⟨k + 4, Nat.le_add_right k 4, .inl rfl⟩⟩, by decide⟩
  match k with
  | 0 => exact ⟨rfl, rfl⟩
  | 1 => exact ⟨rfl, rfl⟩
  | 2 => exact ⟨rfl, rfl⟩
  | 3 => exact ⟨rfl, rfl⟩
  | k + 4 => exact ⟨rfl, rfl⟩

/-- A timeout tick with `T_POLL_MS` over, then the cancel input stops the block: the poll, the branch, the indicator, the
heartbeat, the dot, `TICK`, and time. -/
def testPolling : Execution where
  states
    | 0 => { testLoop with pc := 27, deadline := some 2300, cancel := true }
    | 1 => { testLoop with pc := 28, cancel := true }
    | 2 => { testLoop with pc := 33, cancel := true }
    | 3 => { testLoop with pc := 34, cancel := true, trace := [(.ind .off, 2300)] }
    | 4 => { testLoop with pc := 35, cancel := true, trace := [(.ind .off, 2300), (.tx (heartbeatBytes 1), 2300)] }
    | 5 => { testLoop with
        pc := 26, cancel := true, nlOwed := true
        trace := [(.ind .off, 2300), (.tx (heartbeatBytes 1), 2300), (.log .logDot, 2300)] }
    | k + 6 => { testLoop with
        pc := 26, cancel := true, nlOwed := true, run := .stopped, now := 2300 + k
        trace := [(.ind .off, 2300), (.tx (heartbeatBytes 1), 2300), (.log .logDot, 2300)] }
  turns
    | 0 => .block
    | 1 => .block
    | 2 => .block
    | 3 => .block
    | 4 => .block
    | 5 => .block
    | _ + 6 => .time

theorem witness_WaitsComplete_poll :
    testPolling.Complete ∧ (testPolling.states 0).run = .run ∧ (testPolling.states 0).deadline = some 2300 ∧
    (testPolling.states 0).pc = 27 := by
  refine ⟨⟨fun k => ?_, fun n => ⟨n + 6, Nat.le_add_left n 2300⟩, fun k => ⟨k + 6, Nat.le_add_right k 6, .inl rfl⟩⟩, by decide⟩
  match k with
  | 0 => exact ⟨rfl, rfl⟩
  | 1 => exact ⟨rfl, rfl⟩
  | 2 => exact ⟨rfl, rfl⟩
  | 3 => exact ⟨rfl, rfl⟩
  | 4 => exact ⟨rfl, rfl⟩
  | 5 => exact ⟨rfl, rfl⟩
  | k + 6 => exact ⟨rfl, rfl⟩

theorem witness_StepRunsThePlacedWord :
    State.reset.run = .run ∧ decodeTableWord 24 0xC1C1C1 = some .frameRc ∧ decodeTableWord 2 0 = some .pinsNormal ∧
    decodeTableWord 0 0 = some .validate ∧ decodeTableWord 6 35 = some .logDot := by decide

theorem witness_TerminalStatesKeepTheBlock :
    ∀ r ∈ [RunState.error, RunState.stopped], ∀ a ∈ [[], [Turn.block], [Turn.time], [Turn.env 0 (.moduleSend 1#8 [])]],
      ({ testAt 26 with run := r, agenda := a } : State).run ≠ .run ∧
      ({ testAt 26 with run := r, agenda := a } : State).nextTurnInRun = true := by decide

theorem witness_ResetValues :
    Params.p920.pinsOk = true ∧ ({ Params.p920 with pinAssignment := none } : Params).pinsOk = false := by decide

theorem witness_EnvironmentMoves :
    ({ testAt 0 with agenda := [.time] } : State).agenda = .time :: [] ∧
    (({ testAt 0 with agenda := [.env 5 (.moduleSend 1#8 [2#8])], now := 5 } : State).agenda =
      .env 5 (.moduleSend 1#8 [2#8]) :: [] ∧ 5 ≤ 5) ∧
    (∀ v, ({ testAt 0 with agenda := [.env 0 (.setCancel v)] } : State).agenda = .env 0 (.setCancel v) :: []) ∧
    ({ testAt 0 with agenda := [.env 0 (.hostReset Params.p920)] } : State).agenda = .env 0 (.hostReset Params.p920) :: [] := by
  decide

theorem witness_TraceIsAppendOnly_and_ElementsHaveOnlyTheirWriters :
    State.reset.nextTurnInRun = true ∧ (nextOf (step State.reset)).isSome = true ∧
    (nextOf (step { testAt 4 with deadline := some 9 })).map (·.now) = some 1 := by decide

theorem witness_ReceiveBufferIsFifo :
    (nextOf (step { testAt 4 with rx := [1#8], agenda := [.env 0 (.moduleSend 2#8 [3#8])] })).map (·.rx) = some [1#8, 2#8, 3#8] ∧
    (nextOf (step { testAt 19 with rx := [1#8] })).map (fun t => (t.rx, t.rbuf)) = some ([], [1#8]) ∧
    (nextOf (step { testAt 29 with rx := [1#8] })).map (fun t => (t.rx, t.inbound)) = some ([], [1#8]) := by decide

theorem witness_NoUartInTransitions :
    ∀ pc ∈ [1, 4, 21, 24], ∀ turns ∈ [[], [Turn.time], [Turn.issue 8 0]],
      ({ testAt pc with agenda := turns } : State).nextTurnIsReset = false ∧
      (nextOf (step { testAt pc with agenda := turns })).isSome = true := by decide

theorem witness_ObservedModes :
    ([0, 1, 4, 5, 8, 9, 12, 13, 16, 17].map fun pc => (testAt pc).sequencerState) =
      [some .idle, some .enterConfigMode, some .enterConfigMode, some .queryVersion, some .queryVersion, some .readOldConfig,
        some .readOldConfig, some .writeNewConfig, some .writeNewConfig, some .readBackConfig] ∧
    ([20, 21, 24, 25, 26, 35].map fun pc => (testAt pc).sequencerState) =
      [some .readBackConfig, some .enterNormalMode, some .enterNormalMode, some .done, some .loop, some .loop] ∧
    (Params.p920.indicatorKind = .led ∧ (testAt 0).ind = none ∧ ({ testAt 4 with ind := some .on } : State).ind = some .on) ∧
    ({ Params.p920 with pinAssignment := Params.p920.pinAssignment.map fun pa => { pa with indIsPixel := true } } : Params).indicatorKind =
      .pixel ∧
    ({ Params.p920 with pinAssignment := Params.p920.pinAssignment.map fun pa => { pa with indPin := none } } : Params).indicatorKind =
      .none ∧
    ({ Params.p920 with pinAssignment := none } : Params).indicatorKind = .none := by decide

/-- Reset meets every invariant, and the step from it answers. -/
theorem witness_StepKeepsControl : State.reset.ControlInv ∧ (nextOf (step State.reset)).isSome = true := by
  refine ⟨⟨?_, ?_, ?_, ?_, ?_, ?_, ?_, ?_, ?_, ?_, ?_⟩, by decide⟩ <;>
    simp [State.Hardwired, show State.reset = State.initial Params.p920 from rfl, State.initial]

theorem witness_StepKeepsLines : State.reset.LinesInv ∧ (nextOf (step State.reset)).isSome = true := by
  refine ⟨⟨?_, ?_, ?_, ?_, ?_, ?_, ?_, ?_, ?_, ?_, ?_, ?_, ?_⟩, by decide⟩ <;>
    simp [State.Hardwired, show State.reset = State.initial Params.p920 from rfl, State.initial, lineAAt, lineBAt]

theorem witness_StepKeepsHistory_SafeStatesAlwaysStep_and_CompleteRunsExist :
    State.reset.HistoryInv ∧ State.reset.ControlInv ∧ (nextOf (step State.reset)).isSome = true := by
  refine ⟨⟨?_, ?_, ?_, ?_, ⟨[], ?_, ?_, ?_⟩⟩, witness_StepKeepsControl⟩ <;>
    simp [State.Hardwired, show State.reset = State.initial Params.p920 from rfl, State.initial, tickMessages,
      State.messagesSent, framesSentAt, txWrites]
  split <;> rfl

theorem witness_StepKeepsTiming : State.reset.TimingInv ∧ (nextOf (step State.reset)).isSome = true := by
  refine ⟨⟨?_, ?_, ?_, ?_⟩, by decide⟩ <;>
    simp [State.Hardwired, show State.reset = State.initial Params.p920 from rfl, State.initial, leastClock]

theorem witness_StepKeepsGates : State.reset.GateInv ∧ (nextOf (step State.reset)).isSome = true := by
  refine ⟨⟨?_, ?_, ?_, ?_, ?_, ?_, ?_, ?_⟩, by decide⟩ <;>
    simp [State.Hardwired, show State.reset = State.initial Params.p920 from rfl, State.initial]

/-- A frame in Configuration mode. -/
theorem witness_BlockTransmitsInItsMode_frame :
    testConfiguration.ControlInv ∧ testConfiguration.LinesInv ∧ testConfiguration.nextTurnInRun = true ∧
    (nextOf (step testConfiguration)).map (fun t => (t.mode, txWrites t.trace)) =
      some (.configuration, [[0xC3#8, 0xC3#8, 0xC3#8]]) := by
  refine ⟨⟨?_, ?_, ?_, ?_, ?_, ?_, ?_, ?_, ?_, ?_, ?_⟩, ⟨?_, ?_, ?_, ?_, ?_, ?_, ?_, ?_, ?_, ?_, ?_, ?_, ?_⟩, rfl,
    by decide⟩ <;>
    simp [State.Hardwired, testConfiguration, testAt, State.initial, lineAAt, lineBAt]

/-- A message in Normal mode. -/
theorem witness_BlockTransmitsInItsMode_message :
    testLoop.ControlInv ∧ testLoop.LinesInv ∧ testLoop.nextTurnInRun = true ∧
    (nextOf (step testLoop)).map (fun t => (t.mode, txWrites t.trace)) =
      some (.normal, [[0x72#8, 0x61#8, 0x64#8, 0x69#8, 0x6F#8, 0x20#8, 0x31#8]]) := by
  refine ⟨⟨?_, ?_, ?_, ?_, ?_, ?_, ?_, ?_, ?_, ?_, ?_⟩, ⟨?_, ?_, ?_, ?_, ?_, ?_, ?_, ?_, ?_, ?_, ?_, ?_, ?_⟩, rfl,
    by decide⟩ <;>
    simp [State.Hardwired, testLoop, testAt, State.initial, lineAAt, lineBAt]

end Sys2Proof.Tests
end

section
/-! The decimal digits of a number as bytes (00_scope.md R8, 30_encoding.md R82). -/
namespace Sys2Proof

theorem digitByte_toNat {d : Nat} (h : d < 10) : (digitByte d).toNat = 0x30 + d := by
  simp only [digitByte, BitVec.toNat_ofNat]
  omega

theorem mem_decBytes {n : Nat} {b : Byte} (h : b ∈ decBytes n) : ∃ d, d < 10 ∧ digitByte d = b := by
  obtain ⟨d, hd, rfl⟩ := List.mem_map.mp h
  exact ⟨d, decDigits_lt_ten n n d hd, rfl⟩

/-- Taking `0x30` off each byte gives the digits back. -/
theorem map_toNat_sub_decBytes (n : Nat) : ((decBytes n).map fun b => b.toNat - 0x30) = decDigits n n := by
  have hid : ∀ d ∈ decDigits n n, (digitByte d).toNat - 0x30 = d := fun d hd => by
    simp [digitByte_toNat (decDigits_lt_ten n n d hd)]
  rw [decBytes, List.map_map]
  exact (List.map_congr_left hid).trans (List.map_id' _)

theorem decBytes_ne_nil (n : Nat) : decBytes n ≠ [] := by
  simpa [decBytes] using decDigits_ne_nil n n

theorem decBytes_head_ne_zero {n : Nat} (hn : 0 < n) : (decBytes n).head? ≠ some 0x30#8 := by
  obtain ⟨d, ds, he, hd⟩ := decDigits_head n n (Nat.le_refl n) hn
  have hlt : d < 10 := decDigits_lt_ten n n d (by simp [he])
  intro h
  have hb : digitByte d = 0x30#8 := by simpa [decBytes, he] using h
  have hv : 0x30 + d = 0x30 := by simpa [hb] using (digitByte_toNat hlt).symm
  omega

/-- Settles O6: the bytes are the digits of `decDigits`, whose value and first digit are known. -/
theorem decimalDigits : Obligations.DecimalDigits := by
  intro n
  refine ⟨fun b hb => ?_, ?_, decBytes_ne_nil n, decBytes_head_ne_zero, ?_⟩
  · obtain ⟨d, hd, rfl⟩ := mem_decBytes hb
    exact ⟨d, hd, rfl⟩
  · rw [map_toNat_sub_decBytes, digitsValue_decDigits n n (Nat.le_refl n)]
  · rintro rfl
    rfl

end Sys2Proof
end

section
/-! One step of the block, element by element (10_state.md R20 to R38), over the moves of `BlockMove`. -/
namespace Sys2Proof.Machine

/-! ## Normal forms -/

theorem eq_of_drew {s s1 : State} (h : s1 = s ∨ s1 = s.drawn) : ∃ n, s1 = { s with draws := n } := by
  rcases h with rfl | rfl
  · exact ⟨s1.draws, rfl⟩
  · exact ⟨s.draws + 1, rfl⟩

theorem State.payNewline_eq (s : State) :
    s.payNewline =
      { s with trace := s.trace ++ (if s.nlOwed then [(.log .logNewline, s.now)] else []), nlOwed := false } := by
  cases h : s.nlOwed with
  | true => simp only [h, State.payNewline_owed]; rfl
  | false => rw [s.payNewline_notOwed h]; cases s; cases h; simp

/-- Where a completed micro-operation leads: on by one, to a branch target, or back to 26 (R21). -/
def State.nextPc (s : State) : Nat :=
  if s.pc = 28 then (if s.hit then 29 else 33) else if s.pc = 32 ∨ s.pc = 35 then 26 else s.pc + 1

theorem State.succ_eq_nextPc {s : State} (h : s.pc ≠ 28 ∧ s.pc ≠ 32 ∧ s.pc ≠ 35) : s.pc + 1 = s.nextPc := by
  simp [State.nextPc, h]

theorem waitMs_ne_none (p : Params) (pc : Nat) :
    waitMs p pc ≠ none ↔ pc = 4 ∨ pc = 6 ∨ pc = 10 ∨ pc = 14 ∨ pc = 18 ∨ pc = 24 ∨ pc = 27 := by
  simp only [waitMs]
  split_ifs <;> simp <;> omega

theorem le_of_waitMs {p : Params} {pc d : Nat} (h : waitMs p pc = some d) : pc ≤ 27 := by
  have := (waitMs_ne_none p pc).mp (by simp [h])
  omega

/-! ## The writers of each element -/

/-- From `s` to `t` each element changes only at the pcs whose rule writes it, the trace and the receive buffer only as R37
and R38 say, and what is not the block's not at all. A field left out is one that the move keeps. -/
structure Writes (s t : State) : Prop where
  pc : t.pc = s.pc ∨ t.pc = s.nextPc
  pinA : t.pinA = s.pinA ∨ s.pc = 1 ∨ s.pc = 21 := by exact .inl rfl
  pinB : t.pinB = s.pinB ∨ s.pc = 2 ∨ s.pc = 22 := by exact .inl rfl
  ind : t.ind = s.ind ∨ s.pc = 3 ∨ s.pc = 23 ∨ s.pc = 30 ∨ s.pc = 33 := by exact .inl rfl
  cfg : t.cfg = s.cfg ∨ s.pc = 0 := by exact .inl rfl
  rbuf : t.rbuf = s.rbuf ∨ s.pc = 7 ∨ s.pc = 11 ∨ s.pc = 15 ∨ s.pc = 19 := by exact .inl rfl
  inbound : t.inbound = s.inbound ∨ s.pc = 29 := by exact .inl rfl
  cnt : t.cnt = s.cnt ∨ (s.pc = 25 ∧ t.cnt = 0) ∨ (s.pc = 26 ∧ t.cnt = s.cnt + 1) := by exact .inl rfl
  nlOwed : t.nlOwed = s.nlOwed ∨ s.pc = 25 ∨ s.pc = 32 ∨ s.pc = 35 := by exact .inl rfl
  hit : t.hit = s.hit ∨ s.pc = 27 := by exact .inl rfl
  deadline : t.deadline = s.deadline ∨ waitMs s.params s.pc ≠ none := by exact .inl rfl
  err : t.err = s.err ∨ s.pc = 0 ∨ s.pc = 1 ∨ s.pc = 2 ∨ s.pc = 21 ∨ s.pc = 22 := by exact .inl rfl
  run : t.run = s.run ∨ (t.run = .error ∧ (s.pc = 0 ∨ s.pc = 1 ∨ s.pc = 2 ∨ s.pc = 21 ∨ s.pc = 22)) ∨
    (t.run = .stopped ∧ s.pc = 26) := by exact .inl rfl
  rx : t.rx = s.rx ∨ (t.rx = [] ∧ t.rbuf = s.rx ∧ (s.pc = 7 ∨ s.pc = 11 ∨ s.pc = 15 ∨ s.pc = 19)) ∨
    (t.rx = [] ∧ t.inbound = s.rx ∧ s.pc = 29) := by exact .inl rfl
  trace : ∃ es, t.trace = s.trace ++ es ∧ ∀ x ∈ es, x.2 = s.now := by exact ⟨[], by simp⟩
  now : t.now = s.now := by rfl
  cancel : t.cancel = s.cancel := by rfl
  params : t.params = s.params := by rfl
  agenda : t.agenda = s.agenda := by rfl

theorem Writes.hardwired {s t : State} (w : Writes s t) (h : s.Hardwired) : t.Hardwired := by
  rw [State.Hardwired, w.agenda]
  exact h

theorem BlockMove.writes {s t : State} (m : BlockMove s t) : Writes s t := by
  cases m with
  | validated c at_pc => exact { pc := .inr (by simp [State.nextPc, at_pc]), cfg := .inr at_pc }
  | rejected s1 c at_pc drew code =>
    obtain ⟨n, rfl⟩ := eq_of_drew drew
    exact { pc := .inl rfl, err := .inr (.inl at_pc), run := .inr (.inl ⟨rfl, .inl at_pc⟩), trace := ⟨_, rfl, by simp⟩ }
  | pinFault at_pc =>
    exact { pc := .inl rfl, err := .inr (.inr at_pc), run := .inr (.inl ⟨rfl, .inr at_pc⟩), trace := ⟨_, rfl, by simp⟩ }
  | pinWritten s1 p v drew at_pc =>
    obtain ⟨n, rfl⟩ := eq_of_drew drew
    have hpc : s.pc + 1 = s.nextPc := State.succ_eq_nextPc (by omega)
    cases p with
    | a => exact { pc := .inr hpc, pinA := .inr (by simp at at_pc; omega), trace := ⟨_, rfl, by simp⟩ }
    | b => exact { pc := .inr hpc, pinB := .inr (by simp at at_pc; omega), trace := ⟨_, rfl, by simp⟩ }
  | indicator v at_pc =>
    exact { pc := .inr (State.succ_eq_nextPc (by omega)), ind := .inr (by omega), trace := ⟨_, rfl, by simp⟩ }
  | armed d unarmed wait => exact { pc := .inl rfl, deadline := .inr (by simp [wait]) }
  | waiting => exact { pc := .inl rfl }
  | delayed e armed due at_pc =>
    exact { pc := .inr (State.succ_eq_nextPc (by omega)), deadline := .inr ((waitMs_ne_none ..).mpr (by omega)) }
  | sent bs at_pc => exact { pc := .inr (State.succ_eq_nextPc (by omega)), trace := ⟨_, rfl, by simp⟩ }
  | answered at_pc =>
    exact { pc := .inr (State.succ_eq_nextPc (by omega)), rbuf := .inr at_pc, rx := .inr (.inl ⟨rfl, rfl, at_pc⟩) }
  | logged tag at_pc => exact { pc := .inr (State.succ_eq_nextPc (by omega)), trace := ⟨_, rfl, by simp⟩ }
  | loopStarted at_pc =>
    exact { pc := .inr (by simp [State.nextPc, at_pc]), cnt := .inr (.inl ⟨at_pc, rfl⟩), nlOwed := .inr (.inl at_pc) }
  | cancelled at_pc => exact { pc := .inl rfl, run := .inr (.inr ⟨rfl, at_pc⟩) }
  | ticked at_pc => exact { pc := .inr (by simp [State.nextPc, at_pc]), cnt := .inr (.inr ⟨at_pc, rfl⟩) }
  | polled e r at_pc armed =>
    have wait : waitMs s.params s.pc ≠ none := (waitMs_ne_none ..).mpr (by omega)
    exact { pc := .inr (by simp [State.nextPc, at_pc]), hit := .inr at_pc, deadline := .inr wait }
  | branched at_pc => exact { pc := .inr (by simp [State.nextPc, at_pc]) }
  | received at_pc =>
    exact { pc := .inr (by simp [State.nextPc, at_pc]), inbound := .inr at_pc, rx := .inr (.inr ⟨rfl, rfl, at_pc⟩) }
  | activity at_pc =>
    rw [State.payNewline_eq]
    exact { pc := .inr (by simp [State.nextPc, at_pc]), nlOwed := .inr (.inr (.inl at_pc)),
            trace := ⟨_, List.append_assoc .., by split <;> simp⟩ }
  | dotted at_pc =>
    exact { pc := .inr (by simp [State.nextPc, at_pc]), nlOwed := .inr (.inr (.inr at_pc)), trace := ⟨_, rfl, by simp⟩ }

end Sys2Proof.Machine
end

section
/-! What an invariant has to show, one agent at a time: a step of any agent keeps what each agent's own move keeps. -/
namespace Sys2Proof.Machine

theorem State.Hardwired.rest {s : State} {rest : List Turn} (h : s.Hardwired)
    (hr : rest = s.agenda ∨ ∃ u, s.agenda = u :: rest) : ({ s with agenda := rest } : State).Hardwired := by
  rcases hr with rfl | ⟨u, hu⟩
  · exact h
  · exact fun t ht => h t (by simp [hu, show t ∈ rest from ht])

theorem State.Hardwired.no_probe {s : State} (h : s.Hardwired) (n w : Nat) (rest : List Turn) :
    s.agenda ≠ .issue n w :: rest := fun ha => by
  simpa [Turn.ofTheSpec] using h (.issue n w) (by simp [ha])

/-- A property of the states of hardwired machines that says nothing else about the agenda, and that each agent's move
keeps. -/
structure KeptByAgents (I : State → Prop) : Prop where
  hardwired : ∀ {s}, I s → s.Hardwired
  agenda : ∀ {s : State} {rest}, I s → ({ s with agenda := rest } : State).Hardwired → I { s with agenda := rest }
  block : ∀ {s t}, I s → s.run = .run → BlockMove s t → I t
  time : ∀ {s}, I s → I s.timeStep
  moduleSend : ∀ {s : State} (b bs), I s → I { s with rx := s.rx ++ b :: bs }
  setCancel : ∀ {s : State} (v), I s → I { s with cancel := v }
  hostReset : ∀ {p draws turns}, (∀ u ∈ turns, u.ofTheSpec = true) →
    I { State.resetWith p with draws := draws, agenda := turns }

theorem KeptByAgents.move {I : State → Prop} (k : KeptByAgents I) {s t : State} (h : I s) (m : Move s t) : I t := by
  cases m with
  | block running move => exact k.block h running move
  | time moved => exact moved ▸ k.time h
  | environment e moved =>
    subst moved
    cases e with
    | moduleSend b bs => exact k.moduleSend b bs h
    | setCancel v => exact k.setCancel v h
    | hostReset p => exact k.hostReset (k.hardwired h)
  | passed moved => exact moved ▸ h

theorem KeptByAgents.step {I : State → Prop} (k : KeptByAgents I) {s t : State} (h : I s) (hs : step s = .next t) : I t := by
  have hw : s.Hardwired := k.hardwired h
  obtain ⟨rest, hrest, m⟩ := step_move hs hw.no_probe
  exact k.move (k.agenda h (hw.rest hrest)) m

/-- The two states that reset can leave (70_reset_and_hazards.md R241). -/
theorem State.resetWith_cases (p : Params) :
    (p.pinsOk = true ∧ State.resetWith p = State.initial p) ∨
    (p.pinsOk = false ∧ State.resetWith p =
      { State.initial p with
        run := .error, err := .pinAssignment, trace := [(.log (.logError .pinAssignment), 0)] }) := by
  cases h : p.pinsOk with
  | true => exact .inl ⟨rfl, by simp [State.resetWith, h]⟩
  | false => exact .inr ⟨rfl, by simp [State.resetWith, h]⟩

/-- What holds of a state that reset leaves, whatever draws and turns are ahead, is to be shown of the two it can be. -/
theorem resetWith_induction {I : State → Prop} {p : Params} {draws : Nat} {turns : List Turn}
    (passed : I { State.initial p with draws := draws, agenda := turns })
    (failed : I { State.initial p with
      run := .error, err := .pinAssignment, trace := [(.log (.logError .pinAssignment), 0)]
      draws := draws, agenda := turns }) :
    I { State.resetWith p with draws := draws, agenda := turns } := by
  rcases State.resetWith_cases p with ⟨-, h⟩ | ⟨-, h⟩ <;> rw [h] <;> assumption

/-- Right after reset no turns are ahead, so what every host reset leaves holds of it. -/
theorem resetWith_of_hostReset {I : State → Prop} {p : Params}
    (h : ∀ {draws turns}, (∀ u ∈ turns, u.ofTheSpec = true) → I { State.resetWith p with draws := draws, agenda := turns }) :
    I (State.resetWith p) := by
  refine h (draws := (State.resetWith p).draws) (turns := (State.resetWith p).agenda) ?_
  rcases State.resetWith_cases p with ⟨-, left⟩ | ⟨-, left⟩ <;> rw [left] <;> simp [State.initial]

end Sys2Proof.Machine
end

section
/-! The control invariant (10_state.md R21, R22, R34, R35, 43_duplex_loop.md R187, 60_exceptions.md R211). -/
namespace Sys2Proof.Machine

/-- The part of the control invariant that carries the poll's finding to the tick's end. -/
structure State.PollInv (s : State) : Prop where
  hitHasData : s.pc = 28 → s.hit = true → s.rx ≠ []
  readHasData : s.pc = 29 → s.hit = true ∧ s.rx ≠ []
  dataTick : 30 ≤ s.pc → s.pc ≤ 32 → s.hit = true ∧ s.inbound ≠ []
  timeoutTick : 33 ≤ s.pc → s.hit = false

theorem State.ControlInv.pollInv {s : State} (h : s.ControlInv) : s.PollInv :=
  ⟨h.hitHasData, h.readHasData, h.dataTick, h.timeoutTick⟩

theorem State.PollInv.of_le {s : State} (h : s.pc ≤ 27) : s.PollInv := by
  constructor <;> omega

/-- Within the data tick and within the timeout tick the finding is carried on. -/
theorem State.PollInv.succ {s t : State} (h : s.PollInv) (hs : 30 ≤ s.pc ∧ s.pc ≤ 31 ∨ 33 ≤ s.pc)
    (hpc : t.pc = s.pc + 1) (hit : t.hit = s.hit) (inbound : t.inbound = s.inbound) : t.PollInv where
  hitHasData := by omega
  readHasData := by omega
  dataTick _ _ := by rw [hit, inbound]; exact h.dataTick (by omega) (by omega)
  timeoutTick _ := by rw [hit]; exact h.timeoutTick (by omega)

theorem BlockMove.keeps_pollInv {s t : State} (m : BlockMove s t) (h : s.PollInv) : t.PollInv := by
  cases m with
  | waiting => exact h
  | polled e r at_pc armed result =>
    refine ⟨fun _ hr => ?_, by simp, by simp, by simp⟩
    rcases result with ⟨-, data⟩ | ⟨rfl, -⟩
    · exact data
    · cases hr
  | branched at_pc =>
    cases hit : s.hit with
    | true => constructor <;> simp [hit, h.hitHasData at_pc hit]
    | false => constructor <;> simp [hit]
  | received at_pc =>
    obtain ⟨hit, data⟩ := h.readHasData at_pc
    constructor <;> simp [hit, data]
  | indicator | sent =>
    by_cases early : s.pc < 27
    · exact .of_le early
    · exact h.succ (by omega) rfl rfl rfl
  | rejected s1 c at_pc drew =>
    obtain ⟨n, rfl⟩ := eq_of_drew drew
    exact .of_le (by simp [at_pc])
  | armed d unarmed wait => exact .of_le (le_of_waitMs wait)
  | activity | dotted => exact .of_le (by simp)
  | _ => exact .of_le (by simp <;> omega)

theorem State.ControlInv.unarmed {s : State} (h : s.ControlInv)
    (hp : ¬(s.pc = 4 ∨ s.pc = 6 ∨ s.pc = 10 ∨ s.pc = 14 ∨ s.pc = 18 ∨ s.pc = 24 ∨ s.pc = 27)) : s.deadline = none := by
  cases hd : s.deadline with
  | none => rfl
  | some e =>
    obtain ⟨d, hw, -⟩ := h.armedAtWait e hd
    exact absurd ((waitMs_ne_none s.params s.pc).mp (by simp [hw])) hp

theorem State.ControlInv.no_error {s : State} (h : s.ControlInv) (running : s.run = .run) : s.err = .none := by
  by_contra he
  cases running.symm.trans (h.errorHasCode.mpr he)

/-- A running block that goes on without an error, no wait armed. -/
theorem State.ControlInv.moved {s t : State} (h : s.ControlInv) (running : s.run = .run) (w : Writes s t) (poll : t.PollInv)
    (run : t.run = s.run) (err : t.err = s.err) (unarmed : t.deadline = none) (inTable : t.pc ≤ 35) : t.ControlInv where
  hardwired := w.hardwired h.hardwired
  pcInTable := inTable
  errorHasCode := by rw [run, err]; exact h.errorHasCode
  stoppedAtTick := by simp [run, running]
  configErrorAtZero := by simp [err, h.no_error running]
  pinFaultAtSetPin := by simp [err, h.no_error running]
  armedAtWait := by simp [unarmed]
  hitHasData := poll.hitHasData
  readHasData := poll.readHasData
  dataTick := poll.dataTick
  timeoutTick := poll.timeoutTick

theorem BlockMove.keeps_controlInv {s t : State} (m : BlockMove s t) (running : s.run = .run) (h : s.ControlInv) :
    t.ControlInv := by
  have w : Writes s t := m.writes
  have poll : t.PollInv := m.keeps_pollInv h.pollInv
  cases m with
  | rejected s1 c at_pc drew code =>
    obtain ⟨n, rfl⟩ := eq_of_drew drew
    exact { h with
      errorHasCode := by rcases code with rfl | rfl <;> simp
      stoppedAtTick := by simp
      configErrorAtZero := fun _ => at_pc
      pinFaultAtSetPin := by rcases code with rfl | rfl <;> simp }
  | pinFault at_pc =>
    exact { h with
      errorHasCode := by simp
      stoppedAtTick := by simp
      configErrorAtZero := by simp
      pinFaultAtSetPin := fun _ => at_pc }
  | armed d unarmed wait =>
    exact { h with armedAtWait := fun e he => ⟨d, wait, by cases he; exact Nat.le_refl _⟩ }
  | waiting => exact h
  | cancelled at_pc =>
    exact { h with
      errorHasCode := by simp [h.no_error running]
      stoppedAtTick := fun _ => at_pc }
  | delayed | polled => exact h.moved running w poll rfl rfl rfl (by simp <;> omega)
  | branched => exact h.moved running w poll rfl rfl (h.unarmed (by omega)) (by simp only [State.goto_pc]; split <;> omega)
  | pinWritten s1 p v drew at_pc =>
    obtain ⟨n, rfl⟩ := eq_of_drew drew
    exact h.moved running w poll (by simp) (by simp) (by simpa using h.unarmed (by omega)) (by simp; omega)
  | activity at_pc =>
    rw [State.payNewline_eq] at w poll ⊢
    exact h.moved running w poll rfl rfl (h.unarmed (by omega)) (by simp)
  | _ => exact h.moved running w poll rfl rfl (h.unarmed (by omega)) (by simp <;> omega)

theorem controlInv_hostReset {p : Params} {draws : Nat} {turns : List Turn} (spec : ∀ u ∈ turns, u.ofTheSpec = true) :
    State.ControlInv { State.resetWith p with draws := draws, agenda := turns } := by
  refine resetWith_induction ?_ ?_ <;> constructor <;> simp_all [State.Hardwired, State.initial]

theorem controlInv_keptByAgents : KeptByAgents State.ControlInv where
  hardwired h := h.hardwired
  agenda h hw := { h with hardwired := hw }
  block h running m := m.keeps_controlInv running h
  time h := { h with
    armedAtWait := fun e he => by
      obtain ⟨d, hd, hle⟩ := h.armedAtWait e he
      exact ⟨d, hd, Nat.le_trans hle (by simp)⟩ }
  moduleSend b bs h := { h with
    hitHasData := by simp
    readHasData := fun hp => ⟨(h.readHasData hp).1, by simp⟩ }
  setCancel v h := { h with }
  hostReset := controlInv_hostReset

/-- Settles O54: what each agent's move keeps. -/
theorem stepKeepsControl : Obligations.StepKeepsControl := fun _ _ h hs => controlInv_keptByAgents.step h hs

end Sys2Proof.Machine
end

section
/-! The transmit history (10_state.md R28, 42_sequencer.md R161, 43_duplex_loop.md R182, R198). -/
namespace Sys2Proof.Machine

/-! ## The transmit stream and what is due in it -/

theorem txWrites_append (xs ys : List (Event × Nat)) : txWrites (xs ++ ys) = txWrites xs ++ txWrites ys :=
  List.filterMap_append

theorem txWrites_concat_tx (tr : List (Event × Nat)) (bs : List Byte) (n : Nat) :
    txWrites (tr ++ [(.tx bs, n)]) = txWrites tr ++ [bs] := txWrites_append ..

theorem txWrites_concat_other {tr : List (Event × Nat)} {e : Event} {n : Nat} (h : e.txBytes = none) :
    txWrites (tr ++ [(e, n)]) = txWrites tr := by
  simp [txWrites, h]

/-- The frames of the configuration phase that are sent when the block stands at `s.pc`. -/
def State.framesSent (s : State) : List (List Byte) :=
  match validConfig s.params with
  | some c => (configurationWrites c).take (framesSentAt s.pc)
  | none => []

theorem State.framesSent_eq {s : State} {c : ConfigRegisters} (h : validConfig s.params = some c) :
    s.framesSent = (configurationWrites c).take (framesSentAt s.pc) := by
  simp only [State.framesSent, h]

theorem State.framesSent_congr {s t : State} (params : t.params = s.params) (frames : framesSentAt t.pc = framesSentAt s.pc) :
    t.framesSent = s.framesSent := by
  simp only [State.framesSent, params, frames]

theorem framesSentAt_loop {pc : Nat} (h : 18 ≤ pc) : framesSentAt pc = 4 := by
  simp only [framesSentAt]
  split_ifs <;> omega

theorem State.messagesSent_early {s : State} (h : s.pc ≤ 25) : s.messagesSent = 0 := by
  simp only [State.messagesSent, if_pos h]

/-- The stream holds the frames due at the pc and then the messages of the ticks. -/
def State.SentAsDue (s : State) : Prop :=
  ∃ ms, tickMessages ms ∧ ms.length = s.messagesSent ∧ txWrites s.trace = s.framesSent ++ ms

theorem State.HistoryInv.sentAsDue {s : State} (h : s.HistoryInv) : s.SentAsDue := h.sent

theorem tickMessages_nil : tickMessages [] := by
  intro k m h
  cases h

theorem tickMessages_concat {ms : List (List Byte)} {m : List Byte} {n : Nat} (h : tickMessages ms)
    (hn : ms.length + 1 = n) (hm : m = heartbeatBytes n ∨ m = replyBytes n) : tickMessages (ms ++ [m]) := by
  intro k x hx
  rw [List.getElem?_append] at hx
  split at hx
  · exact h k x hx
  · rw [List.getElem?_singleton] at hx
    split at hx <;> cases hx
    rwa [show k + 1 = n by omega]

/-! ## The moves that send nothing -/

/-- From `s` to `t` nothing is sent and nothing more is due. -/
structure Silent (s t : State) : Prop where
  tx : txWrites t.trace = txWrites s.trace
  frames : framesSentAt t.pc = framesSentAt s.pc := by rfl
  messages : t.messagesSent = s.messagesSent := by rfl

/-- Going on by one from a pc that neither sends nor ends a tick nor counts one. -/
theorem Silent.succ {s t : State} (tx : txWrites t.trace = txWrites s.trace) (pc : t.pc = s.pc + 1) (cnt : t.cnt = s.cnt)
    (hp : s.pc ≤ 4 ∨ 6 ≤ s.pc ∧ s.pc ≤ 8 ∨ 10 ≤ s.pc ∧ s.pc ≤ 12 ∨ 14 ≤ s.pc ∧ s.pc ≤ 16 ∨ 18 ≤ s.pc ∧ s.pc ≤ 24 ∨
      27 ≤ s.pc ∧ s.pc ≤ 30 ∨ s.pc = 33) : Silent s t where
  tx := tx
  frames := by
    simp only [pc, framesSentAt]
    split_ifs <;> omega
  messages := by
    simp only [State.messagesSent, pc, cnt]
    split_ifs <;> omega

/-- A move of the block sends nothing, or is one of the six `SEND`s. -/
theorem BlockMove.tx_cases {s t : State} (m : BlockMove s t) :
    Silent s t ∨
    ∃ bs, t = (s.emit (.tx bs)).goto (s.pc + 1) ∧
      (s.pc = 5 ∧ bs = queryVersionFrame ∨ (s.pc = 9 ∨ s.pc = 17) ∧ bs = readConfigFrame ∨
        s.pc = 13 ∧ (∃ c, s.cfg = some c ∧ bs = writeConfigFrame c) ∨
        s.pc = 31 ∧ bs = replyBytes s.cnt ∨ s.pc = 34 ∧ bs = heartbeatBytes s.cnt) := by
  cases m with
  | sent bs at_pc => exact .inr ⟨bs, rfl, at_pc⟩
  | armed | waiting | cancelled => exact .inl { tx := rfl }
  | pinFault => exact .inl { tx := txWrites_concat_other rfl }
  | rejected s1 c at_pc drew =>
    obtain ⟨n, rfl⟩ := eq_of_drew drew
    exact .inl { tx := txWrites_concat_other rfl }
  | pinWritten s1 p v drew at_pc =>
    obtain ⟨n, rfl⟩ := eq_of_drew drew
    exact .inl (.succ (by simp [txWrites, Event.txBytes]) rfl (by simp) (by omega))
  | validated c at_pc => exact .inl (.succ rfl (by simp [at_pc]) rfl (by omega))
  | indicator v at_pc => exact .inl (.succ (txWrites_concat_other rfl) rfl rfl (by omega))
  | logged tag at_pc => exact .inl (.succ (txWrites_concat_other rfl) rfl rfl (by omega))
  | delayed e armed due at_pc => exact .inl (.succ rfl rfl rfl (by omega))
  | answered at_pc => exact .inl (.succ rfl rfl rfl (by omega))
  | polled e r at_pc => exact .inl (.succ rfl (by simp [at_pc]) rfl (by omega))
  | received at_pc => exact .inl (.succ rfl (by simp [at_pc]) rfl (by omega))
  | loopStarted at_pc | ticked at_pc =>
    exact .inl ⟨rfl, by simp [at_pc, framesSentAt], by simp [at_pc, State.messagesSent]⟩
  | branched at_pc =>
    exact .inl ⟨rfl, by cases s.hit <;> simp [at_pc, framesSentAt], by cases s.hit <;> simp [at_pc, State.messagesSent]⟩
  | activity at_pc =>
    rw [State.payNewline_eq]
    refine .inl ⟨(txWrites_concat_other rfl).trans ?_, by simp [at_pc, framesSentAt], by simp [at_pc, State.messagesSent]⟩
    cases s.nlOwed
    · simp
    · exact txWrites_concat_other rfl
  | dotted at_pc =>
    exact .inl ⟨txWrites_concat_other rfl, by simp [at_pc, framesSentAt], by simp [at_pc, State.messagesSent]⟩

theorem State.SentAsDue.silent {s t : State} (h : s.SentAsDue) (q : Silent s t) (params : t.params = s.params) :
    t.SentAsDue := by
  obtain ⟨ms, numbered, count, stream⟩ := h
  exact ⟨ms, numbered, by rw [q.messages, count], by rw [q.tx, State.framesSent_congr params q.frames, stream]⟩

/-! ## The moves that send -/

/-- Each `SEND` of the configuration phase sends the next of the four frames. -/
theorem next_frame {pc : Nat} {bs : List Byte} {c : ConfigRegisters}
    (h : pc = 5 ∧ bs = queryVersionFrame ∨ (pc = 9 ∨ pc = 17) ∧ bs = readConfigFrame ∨ pc = 13 ∧ bs = writeConfigFrame c) :
    framesSentAt (pc + 1) = framesSentAt pc + 1 ∧ (configurationWrites c)[framesSentAt pc]? = some bs := by
  rcases h with ⟨rfl, rfl⟩ | ⟨rfl | rfl, rfl⟩ | ⟨rfl, rfl⟩ <;> exact ⟨rfl, rfl⟩

theorem State.SentAsDue.frame {s : State} {bs : List Byte} {c : ConfigRegisters} (h : s.SentAsDue)
    (valid : validConfig s.params = some c)
    (sends : s.pc = 5 ∧ bs = queryVersionFrame ∨ (s.pc = 9 ∨ s.pc = 17) ∧ bs = readConfigFrame ∨
      s.pc = 13 ∧ bs = writeConfigFrame c) :
    ((s.emit (.tx bs)).goto (s.pc + 1)).SentAsDue := by
  obtain ⟨ms, -, count, stream⟩ := h
  obtain ⟨due, next⟩ := next_frame sends
  have before : ms = [] := List.length_eq_zero_iff.mp (count.trans (State.messagesSent_early (by omega)))
  have after : ((s.emit (.tx bs)).goto (s.pc + 1)).messagesSent = 0 := State.messagesSent_early (by simp; omega)
  have frames : ((s.emit (.tx bs)).goto (s.pc + 1)).framesSent = s.framesSent ++ [bs] := by
    rw [State.framesSent_eq valid, State.framesSent_eq (s := (s.emit (.tx bs)).goto (s.pc + 1)) valid, State.goto_pc, due,
      List.take_add_one, next, Option.toList_some]
  refine ⟨[], tickMessages_nil, after.symm, ?_⟩
  rw [frames, State.goto_trace, State.emit_trace, txWrites_concat_tx, stream, before, List.append_nil, List.append_nil]

/-- The message of the tick under way carries the number of the tick. -/
theorem State.SentAsDue.message {s : State} {bs : List Byte} (h : s.SentAsDue) (counted : 1 ≤ s.cnt)
    (hp : s.pc = 31 ∨ s.pc = 34) (hm : bs = heartbeatBytes s.cnt ∨ bs = replyBytes s.cnt) :
    ((s.emit (.tx bs)).goto (s.pc + 1)).SentAsDue := by
  obtain ⟨ms, numbered, count, stream⟩ := h
  have before : s.messagesSent = s.cnt - 1 := by rcases hp with hp | hp <;> simp [State.messagesSent, hp]
  have after : ((s.emit (.tx bs)).goto (s.pc + 1)).messagesSent = s.cnt := by
    rcases hp with hp | hp <;> simp [State.messagesSent, hp]
  have frames : ((s.emit (.tx bs)).goto (s.pc + 1)).framesSent = s.framesSent :=
    State.framesSent_congr rfl (by rw [State.goto_pc, framesSentAt_loop (by omega), framesSentAt_loop (by omega)])
  refine ⟨ms ++ [bs], tickMessages_concat numbered (by omega) hm, by simp; omega, ?_⟩
  rw [frames, State.goto_trace, State.emit_trace, txWrites_concat_tx, stream, List.append_assoc]

theorem BlockMove.keeps_sentAsDue {s t : State} (m : BlockMove s t) (h : s.HistoryInv) : t.SentAsDue := by
  rcases m.tx_cases with silent | ⟨bs, rfl, sends⟩
  · exact h.sentAsDue.silent silent m.writes.params
  · obtain ⟨c, hcfg, valid⟩ := h.cfgBuilt (by omega)
    rcases sends with query | read | ⟨hp, c', hc, rfl⟩ | ⟨hp, hm⟩ | ⟨hp, hm⟩
    · exact h.sentAsDue.frame valid (.inl query)
    · exact h.sentAsDue.frame valid (.inr (.inl read))
    · cases hc.symm.trans hcfg
      exact h.sentAsDue.frame valid (.inr (.inr ⟨hp, rfl⟩))
    · exact h.sentAsDue.message (h.tickCounted (by omega)) (.inl hp) (.inr hm)
    · exact h.sentAsDue.message (h.tickCounted (by omega)) (.inr hp) (.inl hm)

/-! ## The configuration and the counter -/

/-- The configuration is kept, and the block stays at pc 0 or beyond it, but where `VALIDATE` builds it and leaves pc 0. -/
theorem BlockMove.cfg_cases {s t : State} (m : BlockMove s t) :
    (t.cfg = s.cfg ∧ (t.pc = 0 ↔ s.pc = 0)) ∨ (t.pc = 1 ∧ ∃ c, t.cfg = some c ∧ validConfig s.params = some c) := by
  cases m with
  | validated c at_pc valid => exact .inr ⟨rfl, c, rfl, valid⟩
  | rejected s1 c at_pc drew =>
    obtain ⟨n, rfl⟩ := eq_of_drew drew
    exact .inl ⟨rfl, Iff.rfl⟩
  | pinWritten s1 p v drew at_pc =>
    obtain ⟨n, rfl⟩ := eq_of_drew drew
    exact .inl ⟨by simp, by simp; omega⟩
  | branched at_pc => exact .inl ⟨rfl, by cases s.hit <;> simp [at_pc]⟩
  | activity at_pc =>
    rw [State.payNewline_eq]
    exact .inl ⟨rfl, by simp [at_pc]⟩
  | _ => exact .inl ⟨rfl, by simp <;> omega⟩

theorem BlockMove.keeps_tickCounted {s t : State} (m : BlockMove s t) (h : 27 ≤ s.pc → 1 ≤ s.cnt) :
    27 ≤ t.pc → 1 ≤ t.cnt := by
  cases m with
  | ticked => simp
  | rejected s1 c at_pc drew =>
    obtain ⟨n, rfl⟩ := eq_of_drew drew
    simpa using h
  | pinWritten s1 p v drew at_pc =>
    obtain ⟨n, rfl⟩ := eq_of_drew drew
    simp; omega
  | waiting => exact h
  | branched at_pc => exact fun _ => h (by omega)
  | _ => simp <;> omega

theorem BlockMove.keeps_historyInv {s t : State} (m : BlockMove s t) (h : s.HistoryInv) : t.HistoryInv where
  hardwired := m.writes.hardwired h.hardwired
  cfgUnbuilt hp := by
    rcases m.cfg_cases with ⟨same, here⟩ | ⟨moved, -⟩
    · rw [same]; exact h.cfgUnbuilt (here.mp hp)
    · omega
  cfgBuilt hp := by
    rw [m.writes.params]
    rcases m.cfg_cases with ⟨same, here⟩ | ⟨-, built⟩
    · rw [same]; exact h.cfgBuilt (by omega)
    · exact built
  tickCounted := m.keeps_tickCounted h.tickCounted
  sent := m.keeps_sentAsDue h

theorem historyInv_hostReset {p : Params} {draws : Nat} {turns : List Turn} (spec : ∀ u ∈ turns, u.ofTheSpec = true) :
    State.HistoryInv { State.resetWith p with draws := draws, agenda := turns } := by
  refine resetWith_induction ?_ ?_ <;> constructor
  case sent | sent => exact ⟨[], tickMessages_nil, rfl, by split <;> rfl⟩
  all_goals simp_all [State.Hardwired, State.initial]

theorem historyInv_keptByAgents : KeptByAgents State.HistoryInv where
  hardwired h := h.hardwired
  agenda h hw := { h with hardwired := hw }
  block h _ m := m.keeps_historyInv h
  time h := { h with }
  moduleSend _ _ h := { h with }
  setCancel _ h := { h with }
  hostReset := historyInv_hostReset

/-- Settles O56: what each agent's move keeps. -/
theorem stepKeepsHistory : Obligations.StepKeepsHistory := fun _ _ h hs => historyInv_keptByAgents.step h hs

end Sys2Proof.Machine
end

section
/-! What a step of a run can change, whichever agent moves (10_state.md R20 to R38). -/
namespace Sys2Proof.Machine

/-- A step of a run is the block's and writes as its rules say, or is time's, or moves at most the receive buffer at its tail,
the cancel input and the agenda. -/
theorem run_step_cases {s t : State} (hw : s.nextTurnInRun = true) (h : step s = .next t) :
    (s.run = .run ∧ ∃ rest, Writes { s with agenda := rest } t) ∨
    (∃ rest, t = { s with now := s.now + 1, agenda := rest }) ∨
    (∃ bs v rest, t = { s with rx := s.rx ++ bs, cancel := v, agenda := rest }) := by
  obtain ⟨rest, -, ⟨running, m⟩ | moved | ⟨b, bs, moved⟩ | ⟨v, moved⟩ | moved⟩ := run_move h hw
  · exact .inl ⟨running, rest, m.writes⟩
  · exact .inr (.inl ⟨rest, moved⟩)
  · exact .inr (.inr ⟨b :: bs, s.cancel, rest, moved⟩)
  · exact .inr (.inr ⟨[], v, rest, by simpa using moved⟩)
  · exact .inr (.inr ⟨[], s.cancel, rest, by simpa using moved⟩)

theorem State.blockReady_ended {s : State} (ended : s.run ≠ .run) : s.blockReady = false :=
  Bool.eq_false_iff.mpr fun h => ended (State.blockReady_run h)

theorem step_ended {s : State} (ended : s.run ≠ .run) : ∃ t, step s = .next t := by
  have waits : ∀ rest, ({ s with agenda := rest } : State).blockReady = false := fun rest =>
    State.blockReady_ended (s := { s with agenda := rest }) ended
  have earliest : earliestTurn s = .next s.timeStep := by simp [earliestTurn, State.blockReady_ended ended]
  simp only [step, takeTurn]
  split
  · exact ⟨_, earliest⟩
  · exact ⟨_, by simp [blockTurn, waits]; rfl⟩
  · exact ⟨_, rfl⟩
  · split
    · exact ⟨_, rfl⟩
    · exact ⟨_, earliest⟩
  · simp only [issueTurn]
    split
    · contradiction
    · exact ⟨_, rfl⟩
    · exact ⟨_, rfl⟩

/-- Settles O44: an ended state steps, and not by its block. -/
theorem terminalStatesKeepTheBlock : Obligations.TerminalStatesKeepTheBlock := by
  intro s ended hw
  obtain ⟨t, h⟩ := step_ended ended
  refine ⟨t, h, ?_⟩
  rcases run_step_cases hw h with ⟨running, -⟩ | ⟨rest, rfl⟩ | ⟨bs, v, rest, rfl⟩
  · exact absurd running ended
  · exact ⟨rfl, Nat.le_succ _, [], by simp⟩
  · exact ⟨rfl, Nat.le_refl _, bs, rfl⟩

/-- Settles O48: by the writers of the trace. -/
theorem traceIsAppendOnly : Obligations.TraceIsAppendOnly := by
  intro s t hw h
  rcases run_step_cases hw h with ⟨-, rest, w⟩ | ⟨rest, rfl⟩ | ⟨bs, v, rest, rfl⟩
  · exact ⟨w.trace, .inl w.now⟩
  · exact ⟨⟨[], by simp⟩, .inr rfl⟩
  · exact ⟨⟨[], by simp⟩, .inl rfl⟩

/-- Settles O49: by the writers of each element. -/
theorem elementsHaveOnlyTheirWriters : Obligations.ElementsHaveOnlyTheirWriters := by
  intro s t hw h
  rcases run_step_cases hw h with ⟨-, rest, w⟩ | ⟨rest, rfl⟩ | ⟨bs, v, rest, rfl⟩
  · exact ⟨w.pc, w.pinA, w.pinB, w.ind, w.cfg, w.rbuf, w.inbound, w.cnt, w.nlOwed, w.hit, w.deadline, w.err, w.run,
      w.params⟩
  · simp
  · simp

/-- Settles O50: by the readers of the receive buffer. -/
theorem receiveBufferIsFifo : Obligations.ReceiveBufferIsFifo := by
  intro s t hw h
  rcases run_step_cases hw h with ⟨-, rest, w⟩ | ⟨rest, rfl⟩ | ⟨bs, v, rest, rfl⟩
  · rcases w.rx with same | taken
    · exact .inl ⟨[], by simpa using same⟩
    · exact .inr taken
  · exact .inl ⟨[], by simp⟩
  · exact .inl ⟨bs, rfl⟩

end Sys2Proof.Machine
end

section
/-! What reset leaves (10_state.md R41, R42, 70_reset_and_hazards.md R240, R241). -/
namespace Sys2Proof

theorem Params.pinsOk_iff (p : Params) :
    p.pinsOk = true ↔
      ∃ pa, p.pinAssignment = some pa ∧ pa.pinA ≠ pa.pinB ∧ pa.pinA ∈ p.gpioOutputs ∧ pa.pinB ∈ p.gpioOutputs := by
  cases h : p.pinAssignment with
  | none => simp [Params.pinsOk, h]
  | some pa => simp [Params.pinsOk, h, Params.assignmentValid, Params.isGpioOutput, and_assoc]

end Sys2Proof

namespace Sys2Proof.Machine

/-- Settles O46: the check passes or fails, and reset leaves one state for each. -/
theorem resetValues : Obligations.ResetValues := by
  intro p
  refine ⟨p.pinsOk_iff, ?_⟩
  rcases State.resetWith_cases p with ⟨passed, h⟩ | ⟨failed, h⟩
  · exact ⟨.run, .none, [], 0, [], h, by simp, by simp [passed]⟩
  · exact ⟨.error, .pinAssignment, _, 0, [], h, by simp [failed], by simp⟩

theorem linesInv_hostReset {p : Params} {draws : Nat} {turns : List Turn} (spec : ∀ u ∈ turns, u.ofTheSpec = true) :
    State.LinesInv { State.resetWith p with draws := draws, agenda := turns } := by
  refine resetWith_induction ?_ ?_ <;> constructor <;> simp_all [State.Hardwired, State.initial, lineAAt, lineBAt]

theorem timingInv_hostReset {p : Params} {draws : Nat} {turns : List Turn} (spec : ∀ u ∈ turns, u.ofTheSpec = true) :
    State.TimingInv { State.resetWith p with draws := draws, agenda := turns } := by
  refine resetWith_induction ?_ ?_ <;> constructor <;> simp_all [State.Hardwired, State.initial, leastClock]

theorem gateInv_hostReset {p : Params} {draws : Nat} {turns : List Turn} (spec : ∀ u ∈ turns, u.ofTheSpec = true) :
    State.GateInv { State.resetWith p with draws := draws, agenda := turns } := by
  refine resetWith_induction ?_ ?_ <;> constructor <;> simp_all [State.Hardwired, State.initial, responsePc, Event.isPin]

/-- Settles O53: each invariant at the state that reset leaves. -/
theorem resetIsSafe : Obligations.ResetIsSafe := fun _ => {
  control := resetWith_of_hostReset controlInv_hostReset
  lines := resetWith_of_hostReset linesInv_hostReset
  history := resetWith_of_hostReset historyInv_hostReset
  timing := resetWith_of_hostReset timingInv_hostReset
  gates := resetWith_of_hostReset gateInv_hostReset }

end Sys2Proof.Machine
end

section
/-! What the spec reads off a state (10_state.md R23, R25, R26, R27, R40). -/
namespace Sys2Proof.Machine

/-- The first pc of a sequencer state (R23). -/
def SequencerState.firstPc : SequencerState → Nat
  | .idle => 0
  | .enterConfigMode => 1
  | .queryVersion => 5
  | .readOldConfig => 9
  | .writeNewConfig => 13
  | .readBackConfig => 17
  | .enterNormalMode => 21
  | .done => 25
  | .loop => 26

/-- The last pc of a sequencer state (R23). -/
def SequencerState.lastPc : SequencerState → Nat
  | .idle => 0
  | .enterConfigMode => 4
  | .queryVersion => 8
  | .readOldConfig => 12
  | .writeNewConfig => 16
  | .readBackConfig => 20
  | .enterNormalMode => 24
  | .done => 25
  | .loop => 35

theorem State.sequencerState_eq_some_iff {s : State} (running : s.run = .run) (q : SequencerState) :
    s.sequencerState = some q ↔ q.firstPc ≤ s.pc ∧ s.pc ≤ q.lastPc := by
  simp only [State.sequencerState, running]
  constructor
  · intro h
    split_ifs at h <;> cases h <;> simp only [SequencerState.firstPc, SequencerState.lastPc] <;> omega
  · rintro ⟨first, last⟩
    cases q <;> simp only [SequencerState.firstPc, SequencerState.lastPc] at first last <;> grind

theorem State.mode_iff (s : State) :
    (s.mode = .normal ↔ s.pinA = some .zero ∧ s.pinB = some .zero) ∧
    (s.mode = .configuration ↔ s.pinA = some .one ∧ s.pinB = some .one) ∧
    (s.mode = .reserved ↔ s.pinA = some .zero ∧ s.pinB = some .one ∨ s.pinA = some .one ∧ s.pinB = some .zero) ∧
    (s.mode = .unknown ↔ s.pinA = none ∨ s.pinB = none) := by
  rcases hA : s.pinA with _ | _ | _ <;> rcases hB : s.pinB with _ | _ | _ <;> simp [State.mode, hA, hB]

theorem State.settled_eq_false_iff (s : State) : s.settled = false ↔ s.pc ∈ [1, 2, 3, 4, 21, 22, 23, 24] := by
  simp only [State.settled, State.inSettleWindow, Bool.not_eq_false', Bool.or_eq_true, decide_eq_true_eq, List.mem_cons,
    List.not_mem_nil, or_false]
  omega

theorem indicatorKind_iff (p : Params) :
    (p.indicatorKind = .pixel ↔ ∃ pa pin, p.pinAssignment = some pa ∧ pa.indPin = some pin ∧ pa.indIsPixel = true) ∧
    (p.indicatorKind = .led ↔ ∃ pa pin, p.pinAssignment = some pa ∧ pa.indPin = some pin ∧ pa.indIsPixel = false) ∧
    (p.indicatorKind = .none ↔ ∀ pa, p.pinAssignment = some pa → pa.indPin = none) := by
  cases hp : p.pinAssignment with
  | none => simp [Params.indicatorKind, hp]
  | some pa =>
    cases hi : pa.indPin with
    | none => simp [Params.indicatorKind, hp, hi]
    | some pin => cases hx : pa.indIsPixel <;> simp [Params.indicatorKind, hp, hi, hx]

/-- Settles O52: by one characterisation each. -/
theorem observedModes : Obligations.ObservedModes := by
  refine ⟨fun s running => ?_, fun s => ?_, indicatorKind_iff, fun s => ?_⟩
  · have at_pc := State.sequencerState_eq_some_iff running
    have single (n : Nat) : n ≤ s.pc ∧ s.pc ≤ n ↔ s.pc = n := le_antisymm_iff.symm.trans eq_comm
    exact ⟨(at_pc .idle).trans (single 0), at_pc .enterConfigMode, at_pc .queryVersion, at_pc .readOldConfig,
      at_pc .writeNewConfig, at_pc .readBackConfig, at_pc .enterNormalMode, (at_pc .done).trans (single 25), at_pc .loop⟩
  · obtain ⟨normal, configuration, reserved, unknown⟩ := s.mode_iff
    exact ⟨normal, configuration, reserved, unknown, s.settled_eq_false_iff⟩
  · refine ⟨fun kind => ?_, ?_, ?_, ?_, ?_, ?_⟩
    · simp [State.indicatorOutput, kind]
    · rintro (kind | kind) ind <;> simp [State.indicatorOutput, kind, ind]
    all_goals
      intro kind ind
      simp [State.indicatorOutput, kind, ind]

end Sys2Proof.Machine
end

section
/-! The settle gate and the inter-frame gate (20_memory.md R67, 70_reset_and_hazards.md R243, R244): one argument for both. -/
namespace Sys2Proof.Machine

/-! ## The waits of a step -/

theorem waitMs_eq_none {p : Params} {pc : Nat}
    (h : ¬(pc = 4 ∨ pc = 6 ∨ pc = 10 ∨ pc = 14 ∨ pc = 18 ∨ pc = 24 ∨ pc = 27)) : waitMs p pc = none :=
  not_not.mp ((waitMs_ne_none p pc).not.mpr h)

/-- What a move of the block does to the wait timer: it arms it, lets its turn pass, or completes the wait; and there is no
other move from the pc of a wait (20_memory.md R55, R56). -/
theorem BlockMove.wait_cases {s t : State} (m : BlockMove s t) :
    (∃ d, waitMs s.params s.pc = some d ∧ t = s.arm d) ∨ t = s ∨
    (∃ e, s.deadline = some e ∧ (e ≤ s.now ∨ s.pc = 27) ∧ t.deadline = none ∧ t.pc = s.nextPc) ∨
    waitMs s.params s.pc = none := by
  cases m with
  | armed d unarmed wait => exact .inl ⟨d, wait, rfl⟩
  | waiting => exact .inr (.inl rfl)
  | delayed e armed due at_pc => exact .inr (.inr (.inl ⟨e, armed, .inl due, rfl, State.succ_eq_nextPc (by omega)⟩))
  | polled e r at_pc armed => exact .inr (.inr (.inl ⟨e, armed, .inr at_pc, rfl, by simp [State.nextPc, at_pc]⟩))
  | _ => exact .inr (.inr (.inr (waitMs_eq_none (by omega))))

/-- A wait is armed only at the pc of one (10_state.md R34). -/
def State.ArmedAtWait (s : State) : Prop := ∀ e, s.deadline = some e → waitMs s.params s.pc ≠ none

theorem State.ArmedAtWait.unarmed {s : State} (h : s.ArmedAtWait) (no_wait : waitMs s.params s.pc = none) :
    s.deadline = none :=
  Option.eq_none_iff_forall_ne_some.mpr fun e he => h e he no_wait

theorem BlockMove.unarmed {s t : State} (m : BlockMove s t) (h : s.ArmedAtWait) (no_wait : waitMs s.params s.pc = none) :
    t.deadline = none := by
  rcases m.writes.deadline with same | wait
  · exact same.trans (h.unarmed no_wait)
  · exact absurd no_wait wait

theorem BlockMove.keeps_armedAtWait {s t : State} (m : BlockMove s t) (h : s.ArmedAtWait) : t.ArmedAtWait := by
  rcases m.wait_cases with ⟨d, wait, rfl⟩ | rfl | ⟨e, -, -, disarmed, -⟩ | no_wait
  · simp [State.ArmedAtWait, wait]
  · exact h
  · simp [State.ArmedAtWait, disarmed]
  · simp [State.ArmedAtWait, m.unarmed h no_wait]

/-! ## A gate -/

/-- A gate of 50 ms: the pcs behind it, and those of the delays that the block has to complete to get there. -/
structure Gate where
  passed : Nat → Prop
  waits : Nat → Prop
  delay : ∀ {pc}, waits pc → pc = 4 ∨ pc = 6 ∨ pc = 10 ∨ pc = 14 ∨ pc = 18 ∨ pc = 24
  entered : ∀ {s : State}, passed s.nextPc → passed s.pc ∨ waits s.pc

/-- The settle gate: all pcs but those of the transitions are behind it. -/
def settleGate : Gate where
  passed pc := ¬(1 ≤ pc ∧ pc ≤ 4 ∨ 21 ≤ pc ∧ pc ≤ 24)
  waits pc := pc = 4 ∨ pc = 24
  delay h := by omega
  entered {s} h := by simp only [State.nextPc] at h; grind

/-- The inter-frame gate: a response is read and logged behind it. -/
def frameGate : Gate where
  passed pc := responsePc pc = true
  waits pc := pc = 6 ∨ pc = 10 ∨ pc = 14 ∨ pc = 18
  delay h := by omega
  entered {s} h := by simp only [responsePc, State.nextPc, decide_eq_true_eq] at h ⊢; grind

theorem Gate.waitMs_eq (g : Gate) {pc : Nat} (h : g.waits pc) (p : Params) : waitMs p pc = some 50 := by
  rcases g.delay h with rfl | rfl | rfl | rfl | rfl | rfl <;> rfl

/-- An event at clock value `n` lies 50 ms back where the gate is passed, and will when the delay under way is over. -/
structure Gate.Clears (g : Gate) (s : State) (n : Nat) : Prop where
  behind : g.passed s.pc → n + 50 ≤ s.now
  ahead : ∀ e, s.deadline = some e → g.waits s.pc → n + 50 ≤ e

/-- Only a completed delay leads behind a gate, and it was armed after the event. -/
theorem BlockMove.keeps_clears {s t : State} (g : Gate) (m : BlockMove s t) (armed : s.ArmedAtWait) {n : Nat}
    (past : n ≤ s.now) (h : g.Clears s n) : g.Clears t n := by
  rcases m.wait_cases with ⟨d, wait, rfl⟩ | rfl | ⟨e, he, due, disarmed, hpc⟩ | no_wait
  · refine ⟨h.behind, fun e he waits => ?_⟩
    cases wait.symm.trans (g.waitMs_eq waits _)
    cases he
    exact Nat.add_le_add_right past 50
  · exact h
  · refine ⟨fun passed => ?_, by simp [disarmed]⟩
    rw [m.writes.now]
    rcases g.entered (hpc ▸ passed) with passed | waits
    · exact h.behind passed
    · have := g.delay waits
      have := h.ahead e he waits
      omega
  · refine ⟨fun passed => ?_, by simp [m.unarmed armed no_wait]⟩
    rw [m.writes.now]
    have entered : g.passed s.pc ∨ g.waits s.pc := by
      rcases m.writes.pc with hpc | hpc
      · exact .inl (hpc ▸ passed)
      · exact g.entered (hpc ▸ passed)
    rcases entered with passed | waits
    · exact h.behind passed
    · cases no_wait.symm.trans (g.waitMs_eq waits _)

theorem Gate.Clears.later {g : Gate} {s : State} {n : Nat} (h : g.Clears s n) : g.Clears s.timeStep n where
  behind passed := Nat.le_succ_of_le (h.behind passed)
  ahead := h.ahead

/-! ## The events of a step -/

/-- An event that stands in no gate. -/
def Event.plain (e : Event) : Prop := e.isPin = false ∧ e.isTx = false ∧ e.isResponse = false

/-- The move from `s` to `t` puts `es` into the trace, each event where its gates allow it. -/
structure Emits (s t : State) (es : List (Event × Nat)) : Prop where
  trace : t.trace = s.trace ++ es
  now : ∀ x ∈ es, x.2 = s.now
  apart : es.Pairwise gateGap
  pin : ∀ x ∈ es, x.1.isPin = true → waitMs s.params s.pc = none ∧ ¬settleGate.passed t.pc
  tx : ∀ x ∈ es, x.1.isTx = true → waitMs s.params s.pc = none ∧ settleGate.passed s.pc ∧ ¬frameGate.passed t.pc
  response : ∀ x ∈ es, x.1.isResponse = true → frameGate.passed s.pc

theorem Emits.nothing {s t : State} (h : t.trace = s.trace) : Emits s t [] := by
  constructor <;> simp [h]

theorem Emits.one {s t : State} {e : Event} (trace : t.trace = s.trace ++ [(e, s.now)])
    (pin : e.isPin = true → waitMs s.params s.pc = none ∧ ¬settleGate.passed t.pc)
    (tx : e.isTx = true → waitMs s.params s.pc = none ∧ settleGate.passed s.pc ∧ ¬frameGate.passed t.pc)
    (response : e.isResponse = true → frameGate.passed s.pc) : Emits s t [(e, s.now)] where
  trace := trace
  now := by simp
  apart := List.pairwise_singleton ..
  pin := by simpa using pin
  tx := by simpa using tx
  response := by simpa using response

theorem Emits.of_plain {s t : State} {es : List (Event × Nat)} (trace : t.trace = s.trace ++ es)
    (now : ∀ x ∈ es, x.2 = s.now) (plain : ∀ x ∈ es, x.1.plain) : Emits s t es where
  trace := trace
  now := now
  apart := List.pairwise_of_forall_mem_list fun x hx y hy => by
    obtain ⟨pin, tx, -⟩ := plain x hx
    simp [gateGap, now x hx, now y hy, pin, tx]
  pin x hx h := by simp [(plain x hx).1] at h
  tx x hx h := by simp [(plain x hx).2.1] at h
  response x hx h := by simp [(plain x hx).2.2] at h

theorem BlockMove.emits {s t : State} (m : BlockMove s t) : ∃ es, Emits s t es := by
  cases m with
  | rejected s1 c at_pc drew =>
    obtain ⟨n, rfl⟩ := eq_of_drew drew
    exact ⟨_, .of_plain rfl (by simp) (by simp [Event.plain, Event.isPin, Event.isTx, Event.isResponse])⟩
  | pinFault | indicator | dotted =>
    exact ⟨_, .of_plain rfl (by simp) (by simp [Event.plain, Event.isPin, Event.isTx, Event.isResponse])⟩
  | activity =>
    rw [State.payNewline_eq]
    refine ⟨_, .of_plain (List.append_assoc ..) ?_ ?_⟩ <;> cases s.nlOwed <;>
      simp [Event.plain, Event.isPin, Event.isTx, Event.isResponse]
  | pinWritten s1 p v drew at_pc =>
    obtain ⟨n, rfl⟩ := eq_of_drew drew
    have no_wait : waitMs s.params s.pc = none := waitMs_eq_none (by omega)
    exact ⟨_, .one (e := .pin p v) (by simp) (fun _ => ⟨no_wait, by simp [settleGate]; omega⟩) nofun nofun⟩
  | sent bs at_pc =>
    have no_wait : waitMs s.params s.pc = none := waitMs_eq_none (by omega)
    exact ⟨_, .one (e := .tx bs) rfl nofun
      (fun _ => ⟨no_wait, by simp only [settleGate]; omega, by simp [frameGate, responsePc]; omega⟩) nofun⟩
  | logged tag at_pc =>
    exact ⟨_, .one (e := .log (.logHex tag s.rbuf)) rfl nofun nofun fun _ => by simp [frameGate, responsePc]; omega⟩
  | _ => exact ⟨_, .nothing rfl⟩

/-! ## The invariant -/

theorem State.settled_iff (s : State) : s.settled = true ↔ settleGate.passed s.pc := by
  simp only [State.settled, State.inSettleWindow, settleGate, Bool.not_eq_true', Bool.or_eq_false_iff, decide_eq_false_iff_not,
    not_or]

theorem State.GateInv.clears_pin {s : State} (h : s.GateInv) {x : Event × Nat} (hx : x ∈ s.trace) (pin : x.1.isPin = true) :
    settleGate.Clears s x.2 :=
  ⟨fun passed => h.settled (s.settled_iff.mpr passed) x hx pin, fun e he waits => h.settling e he waits x hx pin⟩

theorem State.GateInv.clears_tx {s : State} (h : s.GateInv) {x : Event × Nat} (hx : x ∈ s.trace) (tx : x.1.isTx = true) :
    frameGate.Clears s x.2 :=
  ⟨fun passed => h.answered passed x hx tx, fun e he waits => h.awaiting e he waits x hx tx⟩

theorem gateInv_of_clears {s : State} (hardwired : s.Hardwired) (gaps : s.trace.Pairwise gateGap)
    (past : ∀ x ∈ s.trace, x.2 ≤ s.now) (armed : s.ArmedAtWait)
    (pin : ∀ x ∈ s.trace, x.1.isPin = true → settleGate.Clears s x.2)
    (tx : ∀ x ∈ s.trace, x.1.isTx = true → frameGate.Clears s x.2) : s.GateInv where
  hardwired := hardwired
  gaps := gaps
  past := past
  armedAtWait := armed
  settled settled x hx hp := (pin x hx hp).behind (s.settled_iff.mp settled)
  settling e he waits x hx hp := (pin x hx hp).ahead e he waits
  answered passed x hx ht := (tx x hx ht).behind passed
  awaiting e he waits x hx ht := (tx x hx ht).ahead e he waits

/-- What a step emits keeps its distance from all that stands before it. -/
theorem Emits.gaps {s t : State} {es : List (Event × Nat)} (em : Emits s t es) (h : s.GateInv) :
    t.trace.Pairwise gateGap := by
  rw [em.trace, List.pairwise_append]
  refine ⟨h.gaps, em.apart, fun x hx y hy => ?_⟩
  rw [gateGap, em.now y hy]
  exact ⟨h.past x hx, fun pin tx => (h.clears_pin hx pin).behind (em.tx y hy tx).2.1,
    fun tx response => (h.clears_tx hx tx).behind (em.response y hy response)⟩

theorem BlockMove.keeps_gateInv {s t : State} (m : BlockMove s t) (h : s.GateInv) : t.GateInv := by
  obtain ⟨es, em⟩ := m.emits
  have armed : s.ArmedAtWait := h.armedAtWait
  have mem {x} (hx : x ∈ t.trace) : x ∈ s.trace ∨ x ∈ es := List.mem_append.mp (em.trace ▸ hx)
  refine gateInv_of_clears (m.writes.hardwired h.hardwired) (em.gaps h) (fun x hx => ?_) (m.keeps_armedAtWait armed)
    (fun x hx pin => ?_) fun x hx tx => ?_
  · rw [m.writes.now]
    exact (mem hx).elim (h.past x) fun new => (em.now x new).le
  · rcases mem hx with old | new
    · exact m.keeps_clears settleGate armed (h.past x old) (h.clears_pin old pin)
    · obtain ⟨no_wait, unsettled⟩ := em.pin x new pin
      exact ⟨fun passed => absurd passed unsettled, by simp [m.unarmed armed no_wait]⟩
  · rcases mem hx with old | new
    · exact m.keeps_clears frameGate armed (h.past x old) (h.clears_tx old tx)
    · obtain ⟨no_wait, -, unanswered⟩ := em.tx x new tx
      exact ⟨fun passed => absurd passed unanswered, by simp [m.unarmed armed no_wait]⟩

theorem gateInv_timeStep {s : State} (h : s.GateInv) : s.timeStep.GateInv :=
  gateInv_of_clears h.hardwired h.gaps (fun x hx => Nat.le_succ_of_le (h.past x hx)) h.armedAtWait
    (fun _ hx pin => (h.clears_pin hx pin).later) fun _ hx tx => (h.clears_tx hx tx).later

theorem gateInv_keptByAgents : KeptByAgents State.GateInv where
  hardwired h := h.hardwired
  agenda h hw := { h with hardwired := hw }
  block h _ m := m.keeps_gateInv h
  time := gateInv_timeStep
  moduleSend _ _ h := { h with }
  setCancel _ h := { h with }
  hostReset := gateInv_hostReset

/-- Settles O58: what each agent's move keeps. -/
theorem stepKeepsGates : Obligations.StepKeepsGates := fun _ _ h hs => gateInv_keptByAgents.step h hs

end Sys2Proof.Machine
end

section
/-! The environment's moves and the block's writes to the indicator and reads of the buffer, as equations (10_state.md R39,
20_memory.md R52, R54, R58, R69). -/
namespace Sys2Proof.Machine

theorem step_time {s : State} {rest : List Turn} (head : s.agenda = .time :: rest) :
    step s = .next ({ s with agenda := rest } : State).timeStep := by
  simp only [step, takeTurn, head]

theorem step_due_event {s : State} {rest : List Turn} {t : Nat} {e : EnvEvent} (head : s.agenda = .env t e :: rest)
    (due : t ≤ s.now) : step s = .next (({ s with agenda := rest } : State).environment e) := by
  simp only [step, takeTurn, head, due, if_true]

/-- Settles O47: by the turn at the head of the agenda. -/
theorem environmentMoves : Obligations.EnvironmentMoves := fun _ _ =>
  ⟨fun head => step_time head, fun _ _ _ head due => step_due_event head due, fun _ _ head due => step_due_event head due,
    fun _ _ head due => step_due_event head due⟩

theorem indicatorOutput_of_kind_none {s : State} (kind : s.params.indicatorKind = .none) : s.indicatorOutput = .nothing := by
  simp only [State.indicatorOutput, kind]

/-- Settles O17: each row is `IndicatorSet` and the pc update. -/
theorem indicatorIsSet : Obligations.IndicatorIsSet :=
  ⟨rfl, rfl, rfl, rfl, fun _ => ⟨rfl, rfl, rfl, rfl, fun kind _ => indicatorOutput_of_kind_none kind⟩⟩

/-- Settles O21: each row is `UartReadAvailable` into its element and the pc update. -/
theorem readsTakeTheBuffer : Obligations.ReadsTakeTheBuffer := by
  refine ⟨by decide, fun s => ⟨fun i hi => ?_, rfl⟩⟩
  simp only [List.mem_cons, List.not_mem_nil, or_false] at hi
  rcases hi with rfl | rfl | rfl | rfl <;> rfl

end Sys2Proof.Machine
end

section
/-! The waits (20_memory.md R55, R56, 40_mode_controller.md R106, 42_sequencer.md R152): when the block is ready at one, and
what its step then does. -/
namespace Sys2Proof.Machine

/-! ## The delays -/

/-- The six `DELAY`s. -/
def delays : List Instr := [.delaySettle4, .delaySettle24, .delayFrame6, .delayFrame10, .delayFrame14, .delayFrame18]

theorem delays_run {i : Instr} (hi : i ∈ delays) (s : State) :
    exec i s = .next (s.delay 50) ∧ microOpReady i s = s.waitReady false := by
  simp only [delays, List.mem_cons, List.not_mem_nil, or_false] at hi
  rcases hi with rfl | rfl | rfl | rfl | rfl | rfl <;> exact ⟨rfl, rfl⟩

theorem State.waitReady_iff (s : State) (onData : Bool) :
    s.waitReady onData = true ↔
      s.deadline = none ∨ (∃ e, s.deadline = some e ∧ e ≤ s.now) ∨ onData = true ∧ s.rx ≠ [] := by
  cases h : s.deadline <;> simp [State.waitReady, h]

theorem State.waitReady_early {s : State} {e : Nat} (armed : s.deadline = some e) (early : s.now < e) :
    s.waitReady false = false := by
  simp [State.waitReady, armed, early]

theorem State.blockReady_microOp {s : State} {i : Instr} (running : s.run = .run) (at_pc : microOpAt s.pc = some i) :
    s.blockReady = microOpReady i s := by
  simp only [State.blockReady, running, at_pc]

theorem State.blockReady_delaying {s : State} {i : Instr} {e : Nat} (at_pc : microOpAt s.pc = some i) (hi : i ∈ delays)
    (armed : s.deadline = some e) (early : s.now < e) : s.blockReady = false := by
  by_cases running : s.run = .run
  · rw [State.blockReady_microOp running at_pc, (delays_run hi s).2, State.waitReady_early armed early]
  · exact State.blockReady_ended running

/-- Settles O18: a delay arms, completes or waits, and a module event is the environment's. -/
theorem delayGates : Obligations.DelayGates := by
  refine ⟨by decide, fun s i hi => ?_⟩
  have runs : exec i s = .next (s.delay 50) := (delays_run hi s).1
  refine ⟨fun unarmed => ?_, fun e armed due => ?_, fun e armed early at_pc => ?_⟩
  · rw [runs, s.delay_unarmed 50 unarmed]; rfl
  · rw [runs, s.delay_over 50 armed due]; rfl
  · have waits : s.blockReady = false := State.blockReady_delaying at_pc hi armed early
    exact ⟨waits, by simp [blockTurn, waits], fun _ _ _ head =>
      step_due_event head (Nat.zero_le _)⟩

end Sys2Proof.Machine
end

section
/-! When a running block is ready, and how a wait ends (20_memory.md R55, R56, R69, 42_sequencer.md R151). -/
namespace Sys2Proof.Machine

/-! ## The micro-operations at the pcs of the waits, and at the others -/

/-- A micro-operation's encoding is its pc (30_encoding.md R90). -/
theorem encode_of_microOpAt {pc : Nat} {i : Instr} (h : microOpAt pc = some i) : encode i = .micro pc := by
  unfold microOpAt at h
  split at h <;> cases h <;> rfl

theorem microOpAt_delay {pc : Nat} (h : pc = 4 ∨ pc = 6 ∨ pc = 10 ∨ pc = 14 ∨ pc = 18 ∨ pc = 24) :
    ∃ i ∈ delays, microOpAt pc = some i := by
  rcases h with rfl | rfl | rfl | rfl | rfl | rfl <;> exact ⟨_, by decide, rfl⟩

theorem microOpReady_elsewhere {s : State} {i : Instr} (at_pc : microOpAt s.pc = some i)
    (h : ¬(s.pc = 4 ∨ s.pc = 6 ∨ s.pc = 10 ∨ s.pc = 14 ∨ s.pc = 18 ∨ s.pc = 24 ∨ s.pc = 27)) :
    microOpReady i s = true := by
  have coded : encode i = .micro s.pc := encode_of_microOpAt at_pc
  cases i with
  | delaySettle4 | delayFrame6 | delayFrame10 | delayFrame14 | delayFrame18 | delaySettle24 | pollTPoll =>
    exact absurd (Encoding.micro.inj coded).symm (by omega)
  | _ => rfl

/-- A running block lacks a step only while an armed wait is neither due nor, at the poll, offered data. -/
theorem State.blockReady_iff {s : State} (running : s.run = .run) :
    s.blockReady = true ↔
      waitMs s.params s.pc = none ∨ s.deadline = none ∨ (∃ e, s.deadline = some e ∧ e ≤ s.now) ∨ s.pc = 27 ∧ s.rx ≠ [] := by
  by_cases delay : s.pc = 4 ∨ s.pc = 6 ∨ s.pc = 10 ∨ s.pc = 14 ∨ s.pc = 18 ∨ s.pc = 24
  · obtain ⟨i, hi, at_pc⟩ := microOpAt_delay delay
    have wait : waitMs s.params s.pc ≠ none := (waitMs_ne_none ..).mpr (by omega)
    have other : s.pc ≠ 27 := by omega
    rw [State.blockReady_microOp running at_pc, (delays_run hi s).2, State.waitReady_iff]
    simp [wait, other]
  by_cases poll : s.pc = 27
  · have wait : waitMs s.params 27 ≠ none := (waitMs_ne_none ..).mpr (by omega)
    have at_pc : microOpAt s.pc = some .pollTPoll := by rw [poll]; rfl
    rw [State.blockReady_microOp running at_pc, show microOpReady .pollTPoll s = s.waitReady true from rfl,
      State.waitReady_iff]
    simp [wait, poll]
  · have no_wait : waitMs s.params s.pc = none := waitMs_eq_none (by omega)
    refine iff_of_true ?_ (.inl no_wait)
    cases at_pc : microOpAt s.pc with
    | none => simp [State.blockReady, running, at_pc]
    | some i => rw [State.blockReady_microOp running at_pc, microOpReady_elsewhere at_pc (by omega)]

/-! ## The completing step -/

theorem blockStep_move {s t : State} (h : blockStep s = .next t) : BlockMove s t := by
  cases at_pc : microOpAt s.pc with
  | none => simp [blockStep, at_pc] at h
  | some i => exact block_move at_pc (blockStep_microOp at_pc ▸ h)

theorem execPollTPoll_data {s : State} {e : Nat} (armed : s.deadline = some e) (data : s.rx ≠ []) :
    execPollTPoll s = .next ((s.finishPoll true).goto 28) := by
  simp only [execPollTPoll, armed, data, ne_eq, not_false_eq_true, if_true]

theorem execPollTPoll_timeout {s : State} {e : Nat} (armed : s.deadline = some e) (empty : s.rx = []) (due : e ≤ s.now) :
    execPollTPoll s = .next ((s.finishPoll false).goto 28) := by
  simp only [execPollTPoll, armed, empty, due, ne_eq, not_true_eq_false, if_false, if_true]

/-- The step of a ready block at an armed wait completes the wait. -/
theorem blockStep_completes {s t : State} {e : Nat} (ready : s.blockReady = true) (armed : s.deadline = some e)
    (wait : waitMs s.params s.pc ≠ none) (h : blockStep s = .next t) :
    (e ≤ s.now ∨ s.pc = 27 ∧ s.rx ≠ []) ∧ t.pc = s.pc + 1 ∧ t.deadline = none ∧
      (s.pc = 27 → (t.hit = true ↔ s.rx ≠ [])) := by
  have finished : e ≤ s.now ∨ s.pc = 27 ∧ s.rx ≠ [] := by
    simpa [wait, armed] using (State.blockReady_iff (State.blockReady_run ready)).mp ready
  refine ⟨finished, ?_⟩
  by_cases poll : s.pc = 27
  · have runs : blockStep s = execPollTPoll s := blockStep_microOp (by rw [poll]; rfl)
    by_cases empty : s.rx = []
    · rw [runs, execPollTPoll_timeout armed empty (by simpa [empty] using finished)] at h
      cases h
      simp [poll, empty]
    · rw [runs, execPollTPoll_data armed empty] at h
      cases h
      simp [poll, empty]
  · obtain ⟨i, hi, at_pc⟩ := microOpAt_delay (pc := s.pc) (by have := (waitMs_ne_none ..).mp wait; omega)
    rw [blockStep_microOp at_pc, (delays_run hi s).1, s.delay_over 50 armed (by simpa [poll] using finished)] at h
    cases h
    simp [poll]

end Sys2Proof.Machine
end

section
/-! In a complete execution every wait completes (20_memory.md R69). -/
namespace Sys2Proof.Machine

/-- From `s` to `t` the block stands still. -/
structure StandsStill (s t : State) : Prop where
  pc : t.pc = s.pc
  run : t.run = s.run
  deadline : t.deadline = s.deadline
  params : t.params = s.params

theorem Execution.IsRun.standsStill {x : Execution} (h : x.IsRun) {k j : Nat} (hkj : k ≤ j)
    (others : ∀ i, k ≤ i → i < j → x.turns i ≠ .block) : StandsStill (x.states k) (x.states j) := by
  induction j, hkj using Nat.le_induction with
  | base => exact ⟨rfl, rfl, rfl, rfl⟩
  | succ j hkj ih =>
    obtain ⟨pc, run, deadline, params⟩ := ih fun i hki hij => others i hki (Nat.lt_succ_of_lt hij)
    obtain ⟨now, rx, cancel, -, -, moved⟩ := h.other_turn (others j hkj (Nat.lt_succ_self j))
    rw [moved]
    exact ⟨pc, run, deadline, params⟩

theorem Execution.IsRun.now_mono {x : Execution} (h : x.IsRun) : Monotone fun k => (x.states k).now := by
  refine monotone_nat_of_le_succ fun k => ?_
  by_cases block : x.turns k = .block
  · exact (blockStep_move (h.block_turn block).2).writes.now.ge
  · obtain ⟨now, rx, cancel, later, -, moved⟩ := h.other_turn block
    rw [moved]
    exact later

/-- A running block that takes no step any more is ready from some point on: at the latest when its wait is due. -/
theorem Execution.Complete.ready_from {x : Execution} (h : x.Complete) {k : Nat} (running : (x.states k).run = .run)
    (others : ∀ i, k ≤ i → x.turns i ≠ .block) : ∃ m, ∀ j, k ≤ j → m ≤ j → (x.states j).blockReady = true := by
  have still {j} (hkj : k ≤ j) : StandsStill (x.states k) (x.states j) :=
    h.run.standsStill hkj fun i hki _ => others i hki
  cases armed : (x.states k).deadline with
  | none =>
    exact ⟨k, fun j hkj _ =>
      (State.blockReady_iff ((still hkj).run.trans running)).mpr (.inr (.inl ((still hkj).deadline.trans armed)))⟩
  | some e =>
    obtain ⟨m, due⟩ := h.timeAdvances e
    exact ⟨m, fun j hkj hmj => (State.blockReady_iff ((still hkj).run.trans running)).mpr
      (.inr (.inr (.inl ⟨e, (still hkj).deadline.trans armed, due.trans (h.run.now_mono hmj)⟩)))⟩

theorem Execution.Complete.block_moves_again {x : Execution} (h : x.Complete) {k : Nat}
    (running : (x.states k).run = .run) : ∃ j, k ≤ j ∧ x.turns j = .block := by
  by_contra! others
  obtain ⟨m, ready⟩ := h.ready_from running others
  obtain ⟨j, hj, waits | block⟩ := h.weaklyFair (max k m)
  · simp [ready j (le_of_max_le_left hj) (le_of_max_le_right hj)] at waits
  · exact others j (le_of_max_le_left hj) block

/-- The first step that a running block takes from a point on finds it where it stood. -/
theorem Execution.Complete.next_block_turn {x : Execution} (h : x.Complete) {k : Nat}
    (running : (x.states k).run = .run) :
    ∃ j, k ≤ j ∧ x.turns j = .block ∧ StandsStill (x.states k) (x.states j) := by
  classical
  have again := h.block_moves_again running
  obtain ⟨hkj, block⟩ := Nat.find_spec again
  exact ⟨_, hkj, block, h.run.standsStill hkj fun i hki hij block => Nat.find_min again hij ⟨hki, block⟩⟩

/-- Settles O20: the block's next step is the completing one. -/
theorem waitsComplete : Obligations.WaitsComplete := by
  intro x k h running
  obtain ⟨j, hkj, block, still⟩ := h.next_block_turn running
  refine ⟨⟨j, hkj, block⟩, fun e armed wait => ?_⟩
  obtain ⟨ready, steps⟩ := h.run.block_turn block
  obtain ⟨finished, pc, disarmed, hit⟩ := blockStep_completes (s := { x.states j with agenda := [] }) (e := e)
    ((blockReady_agenda ..).trans ready) (still.deadline.trans armed) (by rw [still.params, still.pc]; exact wait) steps
  exact ⟨j, hkj, block, still.pc, still.deadline.trans armed, finished, pc.trans (congrArg (· + 1) still.pc), disarmed,
    fun poll => hit (still.pc.trans poll)⟩

end Sys2Proof.Machine
end

section
/-! A complete execution from every state of a run (20_memory.md R69, R251): every other turn is time's, and the turns between
are the block's where it has a step. -/
namespace Sys2Proof.Machine

/-! ## The block's step answers -/

/-- A micro-operation answers a next state, but for `SEND WC` without a configuration (41_codec.md R131). -/
theorem exec_answers {s : State} {i : Instr} (micro : i.isMicroOp = true) (built : i = .sendWc → s.cfg ≠ none) :
    ∃ t, exec i s = .next t := by
  cases i with
  | frameQv | frameRc | frameWc | pinsNormal | pinsConfiguration | pinsReserved | msgHeartbeat | msgReply => cases micro
  | validate =>
    simp only [exec, execValidate]
    split <;> exact ⟨_, rfl⟩
  | sendWc =>
    obtain ⟨c, hc⟩ := Option.ne_none_iff_exists'.mp (built rfl)
    exact ⟨_, by simp only [exec, execSendWc, hc]; rfl⟩
  | tick =>
    simp only [exec, execTick]
    split <;> exact ⟨_, rfl⟩
  | pollTPoll =>
    simp only [exec, execPollTPoll]
    repeat' split
    all_goals exact ⟨_, rfl⟩
  | _ => exact ⟨_, rfl⟩

theorem microOpAt_inTable {pc : Nat} (h : pc ≤ 35) : ∃ i, microOpAt pc = some i :=
  Option.isSome_iff_exists.mp ((by decide : ∀ n < 36, (microOpAt n).isSome = true) pc (Nat.lt_succ_of_le h))

theorem blockStep_answers {s : State} (control : s.ControlInv) (history : s.HistoryInv) : ∃ t, blockStep s = .next t := by
  obtain ⟨i, at_pc⟩ := microOpAt_inTable control.pcInTable
  have coded : encode i = .micro s.pc := encode_of_microOpAt at_pc
  rw [blockStep_microOp at_pc]
  refine exec_answers (by simp only [Instr.isMicroOp, coded]) fun sends => ?_
  have here : 13 = s.pc := by subst sends; exact Encoding.micro.inj coded
  obtain ⟨c, hc, -⟩ := history.cfgBuilt (by omega)
  simp [hc]

/-! ## The schedule -/

/-- Who moves at turn `k`. -/
def fairTurn (k : Nat) (s : State) : Turn := if k % 2 = 0 ∧ s.blockReady = true then .block else .time

/-- Where a turn given to `s` leads, where the step answers. -/
def State.after (s : State) (t : Turn) : State :=
  match step (s.given t) with
  | .next u => u
  | .fault _ => s
  | .refused _ => s

/-- The states from `s` on under the schedule of `fairTurn`. -/
def fairStates (s : State) : Nat → State
  | 0 => s
  | k + 1 => (fairStates s k).after (fairTurn k (fairStates s k))

/-- The execution from `s` under the schedule of `fairTurn`. -/
def fairExecution (s : State) : Execution where
  states := fairStates s
  turns k := fairTurn k (fairStates s k)

theorem fairTurn_cases (k : Nat) (s : State) :
    (s.blockReady = true ∧ fairTurn k s = .block) ∨ fairTurn k s = .time := by
  rw [fairTurn]
  split
  · next h => exact .inl ⟨h.2, rfl⟩
  · exact .inr rfl

theorem fairTurn_even (k : Nat) (s : State) : s.blockReady = false ∨ fairTurn (2 * k) s = .block := by
  cases ready : s.blockReady with
  | false => exact .inl rfl
  | true => exact .inr (by simp [fairTurn, ready])

theorem fairTurn_odd (k : Nat) (s : State) : fairTurn (2 * k + 1) s = .time := by
  simp [fairTurn]

theorem fairTurn_enabledAt (k : Nat) (s : State) : (fairTurn k s).enabledAt s = true := by
  rcases fairTurn_cases k s with ⟨ready, h⟩ | h <;> rw [h]
  · exact ready
  · rfl

/-! ## Its run -/

theorem State.given_hardwired (s : State) {t : Turn} (h : t.ofTheSpec = true) : (s.given t).Hardwired := by
  simpa [State.Hardwired] using h

theorem fairTurn_ofTheSpec (k : Nat) (s : State) : (fairTurn k s).ofTheSpec = true := by
  rcases fairTurn_cases k s with ⟨-, h⟩ | h <;> rw [h] <;> rfl

theorem State.after_eq {s u : State} {t : Turn} (h : step (s.given t) = .next u) : s.after t = u := by
  simp only [State.after, h]

theorem step_given_block {s : State} (ready : s.blockReady = true) :
    step (s.given .block) = blockStep { s with agenda := [] } := by
  simp [step, takeTurn, blockTurn, blockReady_agenda, ready]

theorem fairTurn_answers (k : Nat) {s : State} (control : s.ControlInv) (history : s.HistoryInv) :
    step (s.given (fairTurn k s)) = .next (s.after (fairTurn k s)) := by
  suffices ∃ u, step (s.given (fairTurn k s)) = .next u by
    obtain ⟨u, hu⟩ := this
    rw [hu, State.after_eq hu]
  rcases fairTurn_cases k s with ⟨ready, h⟩ | h <;> rw [h]
  · rw [step_given_block ready]
    exact blockStep_answers (controlInv_keptByAgents.agenda control (by simp [State.Hardwired]))
      (historyInv_keptByAgents.agenda history (by simp [State.Hardwired]))
  · exact ⟨_, rfl⟩

/-- What every step keeps holds after any turn of the spec's agents that is given. -/
theorem KeptByAgents.given {I : State → Prop} (kept : KeptByAgents I) {s u : State} {t : Turn} (h : I s)
    (spec : t.ofTheSpec = true) (hs : Machine.step (s.given t) = .next u) : I u :=
  kept.step (kept.agenda h (s.given_hardwired spec)) hs

theorem fairStates_inv {s : State} (control : s.ControlInv) (history : s.HistoryInv) (k : Nat) :
    (fairStates s k).ControlInv ∧ (fairStates s k).HistoryInv := by
  induction k with
  | zero => exact ⟨control, history⟩
  | succ k ih =>
    obtain ⟨control, history⟩ := ih
    have answers := fairTurn_answers k control history
    have spec := fairTurn_ofTheSpec k (fairStates s k)
    exact ⟨controlInv_keptByAgents.given control spec answers, historyInv_keptByAgents.given history spec answers⟩

theorem fairExecution_isRun {s : State} (control : s.ControlInv) (history : s.HistoryInv) : (fairExecution s).IsRun := by
  intro k
  obtain ⟨control, history⟩ := fairStates_inv control history k
  exact ⟨fairTurn_enabledAt k _, fairTurn_answers k control history⟩

theorem fairStates_now {s : State} (run : (fairExecution s).IsRun) (n : Nat) : n ≤ (fairStates s (2 * n)).now := by
  induction n with
  | zero => exact Nat.zero_le _
  | succ n ih =>
    have even : (fairStates s (2 * n)).now ≤ (fairStates s (2 * n + 1)).now := run.now_mono (Nat.le_succ _)
    have odd : (fairStates s (2 * n + 2)).now = (fairStates s (2 * n + 1)).now + 1 := by
      rw [fairStates, fairTurn_odd]
      rfl
    rw [show 2 * (n + 1) = 2 * n + 2 from rfl, odd]
    exact Nat.succ_le_succ (ih.trans even)

theorem fairExecution_complete {s : State} (control : s.ControlInv) (history : s.HistoryInv) :
    (fairExecution s).Complete where
  run := fairExecution_isRun control history
  timeAdvances n := ⟨2 * n, fairStates_now (fairExecution_isRun control history) n⟩
  weaklyFair k := ⟨2 * k, by omega, fairTurn_even k _⟩

/-- Settles O35: the alternating schedule. -/
theorem completeRunsExist : Obligations.CompleteRunsExist := fun s control history =>
  ⟨fairExecution s, rfl, fairExecution_complete control history⟩

end Sys2Proof.Machine
end

section
/-! The reader of the transmit stream takes back what is sent (30_encoding.md R71, R72, R73, R79, R82). -/
namespace Sys2Proof

theorem decodeBytes_writeConfigFrame (address : BitVec 16) (rate : AirRate) (channel : Byte) (fixed : Bool) (drive : DriveMode)
    (wakeup : BitVec 3) (fec : Bool) (power : PowerLevel) (rest : List Byte) :
    decodeBytes (writeConfigFrame (configRegistersOf address rate channel fixed drive wakeup fec power) ++ rest) =
      .ok (.frameWc address rate channel fixed drive wakeup fec power, rest) := by
  obtain ⟨o7, o6, o3, o2, o0⟩ := optionByte_fields fixed drive wakeup fec power
  have reads (bs : List Byte) : decodeBytes (Config.wcOpcode :: bs) = decodeWriteConfig bs := rfl
  simp only [writeConfigFrame, configRegistersOf, List.cons_append, List.nil_append, reads, decodeWriteConfig,
    spedByte_upper, if_true, spedByte_code, AirRate.ofCode_code, hi8_append_lo8, o7, o6, o3, o2, o0,
    DriveMode.ofBit_isPushPull, PowerLevel.ofCode_code]

theorem decodeBytes_heartbeatBytes {n : Nat} {rest : List Byte} (stop : ∀ b tl, rest = b :: tl → digitValue b = none) :
    decodeBytes (heartbeatBytes n ++ rest) = .ok (.msgHeartbeat n, rest) := by
  have reads (bs : List Byte) : decodeBytes (heartbeatHead ++ bs) = decodeMessage (heartbeatHead ++ bs) := rfl
  rw [heartbeatBytes, List.append_assoc, reads]
  simp only [decodeMessage, stripWord_append, decodeNumber_decBytes _ n stop]

theorem decodeBytes_replyBytes {n : Nat} {rest : List Byte} (stop : ∀ b tl, rest = b :: tl → digitValue b = none) :
    decodeBytes (replyBytes n ++ rest) = .ok (.msgReply n, rest) := by
  have reads (bs : List Byte) : decodeBytes (replyHead ++ bs) = decodeMessage (replyHead ++ bs) := rfl
  have other (bs : List Byte) : stripWord heartbeatHead (replyHead ++ bs) = none := rfl
  rw [replyBytes, List.append_assoc, reads]
  simp only [decodeMessage, other, stripWord_append, decodeNumber_decBytes _ n stop]

/-- Settles O2: by what the reader does with each frame and each message. -/
theorem sentRowsAreReadBack : Obligations.SentRowsAreReadBack := by
  intro i bs rest _ coded stop
  cases i with
  | frameQv | frameRc => cases coded; rfl
  | frameWc => cases coded; exact decodeBytes_writeConfigFrame ..
  | msgHeartbeat n => cases coded; exact decodeBytes_heartbeatBytes (stop ⟨n, .inl rfl⟩)
  | msgReply n => cases coded; exact decodeBytes_replyBytes (stop ⟨n, .inr rfl⟩)
  | _ => cases coded

/-- Settles O1: each word is read to its end. -/
theorem writtenOutWordsDecode : Obligations.WrittenOutWordsDecode :=
  ⟨rfl, rfl, rfl, rfl, rfl, rfl, rfl, rfl, rfl, rfl⟩

end Sys2Proof
end

section
/-! The reader of the transmit stream accepts encodings alone (30_encoding.md R71 to R79, R82, R84). -/
namespace Sys2Proof

/-! ## Fields -/

theorem AirRate.code_of_ofCode {c : BitVec 3} {r : AirRate} (h : AirRate.ofCode c = some r) : r.code = c := by
  revert r
  revert c
  decide

theorem PowerLevel.code_ofCode (c : BitVec 2) : (PowerLevel.ofCode c).code = c := by
  revert c
  decide

theorem DriveMode.isPushPull_ofBit (b : Bool) : (DriveMode.ofBit b).isPushPull = b := by cases b <;> rfl

theorem hi8_append (a b : Byte) : hi8 (a ++ b) = a := BitVec.extractLsb'_append_eq_left

theorem lo8_append (a b : Byte) : lo8 (a ++ b) = b := BitVec.extractLsb'_append_eq_right

theorem spedByte_of_fields {sped : Byte} {rate : AirRate} (upper : sped.extractLsb' 3 5 = spedUpper)
    (code : AirRate.ofCode (sped.extractLsb' 0 3) = some rate) : spedByte rate = sped := by
  rw [spedByte, ← upper, AirRate.code_of_ofCode code]
  exact (BitVec.extractLsb'_append_extractLsb'_eq_extractLsb' (start₁ := 0) (len₁ := 3) rfl).trans
    BitVec.extractLsb'_eq_self

theorem bit_getLsbD (x : Byte) (k : Nat) : bit (x.getLsbD k) = x.extractLsb' k 1 := by
  apply BitVec.eq_of_getLsbD_eq
  intro i hi
  obtain rfl : i = 0 := by omega
  simp [bit]

/-- Each field of the option byte stands right above the next one (R78). -/
theorem optionByte_of_fields (o : Byte) :
    optionByte (o.getLsbD 7) (.ofBit (o.getLsbD 6)) (o.extractLsb' 3 3) (o.getLsbD 2) (.ofCode (o.extractLsb' 0 2)) = o := by
  simp only [optionByte, DriveMode.isPushPull_ofBit, PowerLevel.code_ofCode, bit_getLsbD]
  rw [BitVec.extractLsb'_append_extractLsb'_eq_extractLsb' (start₁ := 6) (len₁ := 1) rfl,
    BitVec.extractLsb'_append_extractLsb'_eq_extractLsb' (start₁ := 3) (len₁ := 3) rfl,
    BitVec.extractLsb'_append_extractLsb'_eq_extractLsb' (start₁ := 2) (len₁ := 1) rfl,
    BitVec.extractLsb'_append_extractLsb'_eq_extractLsb' (start₁ := 0) (len₁ := 2) rfl]
  exact BitVec.extractLsb'_eq_self

/-! ## Digits -/

theorem digitValue_eq_some {b : Byte} {d : Nat} (h : digitValue b = some d) : d < 10 ∧ b = digitByte d := by
  simp only [digitValue] at h
  split at h <;> cases h
  next ascii =>
  have digit : b.toNat - 0x30 < 10 := by omega
  exact ⟨digit, BitVec.eq_of_toNat_eq (by rw [digitByte_toNat digit]; omega)⟩

theorem takeDigits_spec (bs : List Byte) :
    (∀ d ∈ (takeDigits bs).1, d < 10) ∧ bs = (takeDigits bs).1.map digitByte ++ (takeDigits bs).2 := by
  induction bs with
  | nil => simp [takeDigits]
  | cons b bs ih =>
    obtain ⟨digits, stream⟩ := ih
    cases value : digitValue b with
    | none => simp [takeDigits, value]
    | some d =>
      obtain ⟨digit, rfl⟩ := digitValue_eq_some value
      simp only [takeDigits, value, List.forall_mem_cons, List.map_cons, List.cons_append, List.cons.injEq, true_and]
      exact ⟨⟨digit, digits⟩, stream⟩

/-- A sequence of digits without a leading zero is the decimal form of its number (00_scope.md R8). -/
theorem decDigits_digitsValue {ds : List Nat} (digits : ∀ d ∈ ds, d < 10) (some_digit : ds ≠ [])
    (no_zero : ∀ tl, ds = 0 :: tl → tl = []) {fuel : Nat} (enough : digitsValue ds ≤ fuel) :
    decDigits fuel (digitsValue ds) = ds := by
  induction ds using List.reverseRecOn generalizing fuel with
  | nil => contradiction
  | append_singleton ds d ih =>
    have digit : d < 10 := digits d (by simp)
    rw [digitsValue_append] at enough ⊢
    by_cases single : ds = []
    · subst single
      cases fuel <;> simp [decDigits, digitsValue] <;> omega
    · have front_digits : ∀ x ∈ ds, x < 10 := fun x hx => digits x (by simp [hx])
      have head : ∀ tl, ds ≠ 0 :: tl := fun tl h => by simpa using no_zero (tl ++ [d]) (by simp [h])
      have front {f : Nat} (h : digitsValue ds ≤ f) : decDigits f (digitsValue ds) = ds :=
        ih front_digits single (fun tl h => absurd h (head tl)) h
      have positive : digitsValue ds ≠ 0 := fun zero =>
        head [] (by simpa [zero, decDigits] using (front zero.le).symm)
      obtain ⟨f, rfl⟩ : ∃ f, fuel = f + 1 := ⟨fuel - 1, by omega⟩
      rw [decDigits, if_neg (by omega), show (10 * digitsValue ds + d) / 10 = digitsValue ds by omega,
        show (10 * digitsValue ds + d) % 10 = d by omega, front (by omega)]

theorem decodeNumber_eq_ok {mk : Nat → Instr} {bs rest : List Byte} {i : Instr} (h : decodeNumber mk bs = .ok (i, rest)) :
    ∃ n, i = mk n ∧ bs = decBytes n ++ rest := by
  obtain ⟨digits, stream⟩ := takeDigits_spec bs
  simp only [decodeNumber] at h
  split at h <;> cases h
  next ds some_digit no_zero taken =>
  rw [taken] at digits stream
  have decimal : decDigits (digitsValue ds) (digitsValue ds) = ds :=
    decDigits_digitsValue digits some_digit (fun | [], _ => rfl | d :: tl, h => (no_zero d tl h).elim) le_rfl
  exact ⟨digitsValue ds, rfl, by rw [decBytes, decimal]; exact stream⟩

/-! ## Frames and messages -/

theorem stripWord_eq_some {w bs rest : List Byte} (h : stripWord w bs = some rest) : bs = w ++ rest := by
  induction w generalizing bs with
  | nil => cases bs <;> cases h <;> rfl
  | cons x w ih =>
    cases bs with
    | nil => cases h
    | cons b bs =>
      simp only [stripWord] at h
      split at h
      · next same => rw [ih h, same, List.cons_append]
      · cases h

theorem decodeTriple_eq_ok {b : Byte} {j i : Instr} {bs rest : List Byte} (h : decodeTriple b j bs = .ok (i, rest)) :
    i = j ∧ bs = b :: b :: rest := by
  simp only [decodeTriple] at h
  split at h
  · split at h <;> cases h
    next same => exact ⟨rfl, by rw [same.1, same.2]⟩
  · cases h

theorem decodeWriteConfig_eq_ok {bs rest : List Byte} {i : Instr} (h : decodeWriteConfig bs = .ok (i, rest)) :
    ∃ es, encode i = .bytes es ∧ Config.wcOpcode :: bs = es ++ rest := by
  simp only [decodeWriteConfig] at h
  split at h
  · next addh addl sped chan opt tl =>
    split at h
    · next upper =>
      split at h <;> cases h
      next rate code =>
      refine ⟨_, rfl, ?_⟩
      simp only [writeConfigFrame, configRegistersOf, hi8_append, lo8_append, spedByte_of_fields upper code,
        optionByte_of_fields, List.cons_append, List.nil_append]
    · cases h
  · cases h

theorem decodeMessage_eq_ok {bs rest : List Byte} {i : Instr} (h : decodeMessage bs = .ok (i, rest)) :
    ∃ es, encode i = .bytes es ∧ bs = es ++ rest := by
  simp only [decodeMessage] at h
  split at h
  · next stripped =>
    obtain ⟨n, rfl, rfl⟩ := decodeNumber_eq_ok h
    exact ⟨_, rfl, by rw [stripWord_eq_some stripped, heartbeatBytes, List.append_assoc]⟩
  · split at h
    · next stripped =>
      obtain ⟨n, rfl, rfl⟩ := decodeNumber_eq_ok h
      exact ⟨_, rfl, by rw [stripWord_eq_some stripped, replyBytes, List.append_assoc]⟩
    · cases h

/-- What the reader accepts is the encoding of the row it answers. -/
theorem decodeBytes_eq_ok {bs rest : List Byte} {i : Instr} (h : decodeBytes bs = .ok (i, rest)) :
    ∃ es, encode i = .bytes es ∧ bs = es ++ rest := by
  cases bs with
  | nil => cases h
  | cons b bs =>
    simp only [decodeBytes] at h
    split_ifs at h with query read write
    · obtain ⟨rfl, rfl⟩ := decodeTriple_eq_ok h
      exact ⟨_, rfl, by rw [query]; rfl⟩
    · obtain ⟨rfl, rfl⟩ := decodeTriple_eq_ok h
      exact ⟨_, rfl, by rw [read]; rfl⟩
    · rw [write]
      exact decodeWriteConfig_eq_ok h
    · exact decodeMessage_eq_ok h

/-- Settles O3: the row's encoding is what was read, and a channel is the only operand that can be ill-formed. -/
theorem readRowsReencode : Obligations.ReadRowsReencode := by
  intro bs rest i h
  obtain ⟨es, coded, stream⟩ := decodeBytes_eq_ok h
  refine ⟨⟨es, coded, stream⟩, ?_⟩
  cases i with
  | frameWc address rate channel fixed drive wakeup fec power =>
    by_cases inRange : 53 ≤ channel.toNat ∧ channel.toNat ≤ 66
    · exact .inl (by simpa [Instr.wellFormed, channelInRange] using inRange)
    · exact .inr ⟨_, _, _, _, _, _, _, _, rfl, inRange⟩
  | pinsReserved => cases coded
  | _ => exact .inl rfl

/-- Settles O5: by the first byte of each row's encoding. -/
theorem firstByteTellsLength : Obligations.FirstByteTellsLength := by
  intro b bs rest i h
  obtain ⟨es, coded, stream⟩ := decodeBytes_eq_ok h
  cases i with
  | frameQv | frameRc | msgHeartbeat | msgReply =>
    cases coded
    obtain ⟨rfl, rfl⟩ := List.cons.inj stream
    simp [Config.qvHeader, Config.rcHeader]
  | frameWc =>
    cases coded
    obtain ⟨rfl, rfl⟩ := List.cons.inj stream
    simp [Config.wcOpcode]
    omega
  | _ => cases coded

end Sys2Proof
end

section
/-! The micro-operations' encodings are their pcs, and a placed table word is what the next step runs (30_encoding.md R90,
42_sequencer.md R150, R151). -/
namespace Sys2Proof

theorem microOpAt_of_encode {i : Instr} {pc : Nat} (h : encode i = .micro pc) : microOpAt pc = some i := by
  cases i <;> cases h <;> rfl

theorem microOpAt_beyond {pc : Nat} (h : 36 ≤ pc) : microOpAt pc = none := by
  obtain ⟨n, rfl⟩ := Nat.exists_eq_add_of_le' h
  rfl

/-- Settles O4: each row is encoded as the pc that selects it, and every pc of the table selects one. -/
theorem microOpsAreSelectedByPc : Obligations.MicroOpsAreSelectedByPc := by
  refine ⟨fun pc i => ⟨Machine.encode_of_microOpAt, microOpAt_of_encode⟩, fun pc => ⟨fun unused => ?_, microOpAt_beyond⟩⟩
  by_contra inTable
  obtain ⟨i, used⟩ := Machine.microOpAt_inTable (pc := pc) (by omega)
  cases unused.symm.trans used

theorem decodeTableWord_micro {nbits : Nat} (h : nbits = 0 ∨ nbits = 6) (w : Nat) : decodeTableWord nbits w = microOpAt w := by
  simp only [decodeTableWord, encodingOfTableWord, h, if_true, decode]
  cases microOpAt w <;> rfl

end Sys2Proof

namespace Sys2Proof.Machine

theorem step_placed_micro {s : State} {nbits w : Nat} {i : Instr} (running : s.run = .run) (kind : nbits = 0 ∨ nbits = 6)
    (row : decodeTableWord nbits w = some i) :
    step (s.withFetchWord nbits w) = exec i { s with pc := w, deadline := none } := by
  have at_pc : microOpAt w = some i := (decodeTableWord_micro kind w).symm.trans row
  have ready : ({ s with pc := w, deadline := none } : State).blockReady = true :=
    (State.blockReady_iff (s := { s with pc := w, deadline := none }) running).mpr (.inr (.inl rfl))
  simp only [State.withFetchWord, placeWord, kind, if_true, step, takeTurn, blockTurn]
  exact (if_pos ready).trans (blockStep_microOp at_pc)

theorem step_placed_probe {s : State} {nbits w : Nat} {i : Instr} (running : s.run = .run) (h0 : nbits ≠ 0) (h6 : nbits ≠ 6)
    (row : decodeTableWord nbits w = some i) : step (s.withFetchWord nbits w) = exec i s := by
  have issued : issueTurn nbits w s = exec i s := by
    simp [issueTurn, running, row, decodeTableWord_isMicroOp h0 h6 row]
  simp only [State.withFetchWord, placeWord, h0, h6, or_self, if_false, step, takeTurn]
  exact issued

/-- Settles O43: a pc's word is the block's next step, any other the probe's. -/
theorem stepRunsThePlacedWord : Obligations.StepRunsThePlacedWord := fun _ _ _ _ running row =>
  ⟨fun h0 h6 => step_placed_probe running h0 h6 row, fun kind => step_placed_micro running kind row⟩

end Sys2Proof.Machine
end

section
/-! The fields of the Write-config frame (30_encoding.md R73 to R78, R85, 41_codec.md R123). -/
namespace Sys2Proof.Machine

theorem freqOk_iff {f : Int} : freqOk f = true ↔ 915 ≤ f ∧ f ≤ 928 := by
  simp only [freqOk, Bool.and_eq_true, decide_eq_true_eq]
  exact Iff.rfl

theorem channelByte_of_freqOk {f : Int} (h : freqOk f = true) :
    ((channelByte f).toNat : Int) = f - 862 ∧ 53 ≤ (channelByte f).toNat ∧ (channelByte f).toNat ≤ 66 := by
  have range := freqOk_iff.mp h
  simp only [channelByte, Config.baseFreqMHz, BitVec.toNat_ofNat]
  omega

theorem isPushPull_eq_decide (d : DriveMode) : d.isPushPull = decide (d = .pushPull) := by cases d <;> rfl

/-- Settles O7: by the fields of each byte. -/
theorem writeConfigFrameLayout : Obligations.WriteConfigFrameLayout := by
  intro p rate freq _
  obtain ⟨o7, o6, o3, o2, o0⟩ := optionByte_fields p.fixedMode p.driveMode p.wakeupCode p.fecEn p.powerDbm
  obtain ⟨offset, low, high⟩ := channelByte_of_freqOk freq
  exact ⟨_, _, _, _, _, rfl, rfl, rfl, spedByte_upper rate, spedByte_code rate, offset, low, high, o7,
    o6.trans (isPushPull_eq_decide _), o3, o2, o0⟩

end Sys2Proof.Machine
end

section
/-! The rows of the table that are encodings, each run by itself (20_memory.md R53, R57, 30_encoding.md R71 to R82,
70_reset_and_hazards.md R243). -/
namespace Sys2Proof.Machine

theorem State.inSettleWindow_of_settled {s : State} (settled : s.settled = true) : s.inSettleWindow = false := by
  simpa [State.settled] using settled

/-- Settles O37: each row is `UartWrite` outside the settle windows. -/
theorem encodedBytesAreSent : Obligations.EncodedBytesAreSent := by
  intro s settled old
  have sent (bs : List Byte) : emitOnUart bs s = .next (s.uartWrite bs) :=
    emitOnUart_sent bs (State.inSettleWindow_of_settled settled) (s.pinJustWritten_eq_false.mpr old)
  exact ⟨sent _, sent _, fun _ _ _ _ _ _ _ _ => sent _, fun _ => sent _, fun _ => sent _⟩

theorem State.drivePins_sure {s : State} (a b : Level) (h : s.params.pinWriteCanFail = false) :
    s.drivePins a b = ((s.pinWrite .a a).pinWrite .b b).letSettle := by
  rw [State.drivePins, State.pinWriteThen_sure .a a _ h, State.pinWriteThen_sure .b b _ (by simpa using h)]

/-- What the two writes and the settle delay leave. -/
theorem State.pinWrites_letSettle_eq (s : State) (a b : Level) :
    ((s.pinWrite .a a).pinWrite .b b).letSettle =
      { s with
        pinA := some a, pinB := some b, agenda := List.replicate 50 .time ++ s.agenda
        trace := s.trace ++ [(.pin .a a, s.now), (.pin .b b, s.now)] } := by
  simp [State.letSettle, State.setLatch, State.emit, Config.tSettleMs]

/-- Settles O39: both writes take place, or the loop runs. -/
theorem targetPatternsAreDriven : Obligations.TargetPatternsAreDriven := by
  intro s
  refine ⟨fun sure => ?_, fun loop => ?_⟩
  · have driven (a b : Level) := (s.drivePins_sure a b sure).trans (s.pinWrites_letSettle_eq a b)
    refine ⟨congrArg _ (driven .zero .zero), fun early => ?_⟩
    rw [← driven]
    simp [exec, execPinsConfiguration, State.configurationDone, early]
  · simp [exec, execPinsConfiguration, State.configurationDone, loop]

end Sys2Proof.Machine
end

section
/-! What the block sends, and the mode it sends it in (30_encoding.md R70, R79, 40_mode_controller.md R109). -/
namespace Sys2Proof.Machine

theorem State.LinesInv.mode_configuration {s : State} (h : s.LinesInv) (low : 3 ≤ s.pc) (high : s.pc ≤ 21) :
    s.mode = .configuration := by
  refine s.mode_iff.2.1.mpr ⟨?_, ?_⟩
  · rw [h.lineA, lineAAt, if_neg (by omega), if_pos high]
  · rw [h.lineB, lineBAt, if_neg (by omega), if_pos (by omega)]

theorem State.LinesInv.mode_normal {s : State} (h : s.LinesInv) (low : 23 ≤ s.pc) : s.mode = .normal := by
  refine s.mode_iff.1.mpr ⟨?_, ?_⟩
  · rw [h.lineA, lineAAt, if_neg (by omega), if_neg (by omega)]
  · rw [h.lineB, lineBAt, if_neg (by omega), if_neg (by omega)]

/-- In a run only the block sends, and it sends by one of its six `SEND`s. -/
theorem run_tx_cases {s t : State} (hw : s.nextTurnInRun = true) (h : step s = .next t) :
    txWrites t.trace = txWrites s.trace ∨
    ∃ bs, txWrites t.trace = txWrites s.trace ++ [bs] ∧
      (s.pc = 5 ∧ bs = queryVersionFrame ∨ (s.pc = 9 ∨ s.pc = 17) ∧ bs = readConfigFrame ∨
        s.pc = 13 ∧ (∃ c, s.cfg = some c ∧ bs = writeConfigFrame c) ∨
        s.pc = 31 ∧ bs = replyBytes s.cnt ∨ s.pc = 34 ∧ bs = heartbeatBytes s.cnt) := by
  obtain ⟨rest, -, ⟨-, m⟩ | rfl | ⟨b, bs, rfl⟩ | ⟨v, rfl⟩ | rfl⟩ := run_move h hw
  · rcases m.tx_cases with silent | ⟨bs, rfl, sends⟩
    · exact .inl silent.tx
    · exact .inr ⟨bs, txWrites_concat_tx .., sends⟩
  all_goals exact .inl rfl

/-- Settles O60: the pc of a `SEND` says both what is sent and where the lines stand. -/
theorem blockTransmitsInItsMode : Obligations.BlockTransmitsInItsMode := by
  intro s t _ lines h hw transmits
  rcases run_tx_cases hw h with silent | ⟨bs, sent, sends⟩
  · exact absurd silent transmits
  rcases sends with ⟨hp, rfl⟩ | ⟨hp, rfl⟩ | ⟨hp, c, -, rfl⟩ | ⟨hp, rfl⟩ | ⟨hp, rfl⟩
  · exact .inl ⟨lines.mode_configuration (by omega) (by omega), _, sent, .inl rfl⟩
  · exact .inl ⟨lines.mode_configuration (by omega) (by omega), _, sent, .inr (.inl rfl)⟩
  · exact .inl ⟨lines.mode_configuration (by omega) (by omega), _, sent, .inr (.inr rfl)⟩
  · exact .inr ⟨lines.mode_normal (by omega), _, sent, .inr rfl⟩
  · exact .inr ⟨lines.mode_normal (by omega), _, sent, .inl rfl⟩

end Sys2Proof.Machine
end

section
/-! The lines and the indicator follow the pc (40_mode_controller.md R100, R101, R103, R109, 43_duplex_loop.md R198). -/
namespace Sys2Proof.Machine

/-- The pcs whose micro-operation writes a line, the indicator or the poll's result. -/
def writesLinesAt (pc : Nat) : Prop :=
  pc = 1 ∨ pc = 2 ∨ pc = 3 ∨ pc = 21 ∨ pc = 22 ∨ pc = 23 ∨ pc = 27 ∨ pc = 30 ∨ pc = 33

/-- Below the loop only the step from `n` itself leads beyond `n`. -/
theorem State.nextPc_le_iff {s : State} {n : Nat} (h : s.pc ≠ n) (hn : n ≤ 25) : s.nextPc ≤ n ↔ s.pc ≤ n := by
  simp only [State.nextPc]
  split_ifs <;> omega

theorem lineAAt_nextPc {s : State} (h1 : s.pc ≠ 1) (h21 : s.pc ≠ 21) : lineAAt s.nextPc = lineAAt s.pc := by
  simp only [lineAAt, State.nextPc_le_iff h1 (by decide), State.nextPc_le_iff h21 (by decide)]

theorem lineBAt_nextPc {s : State} (h2 : s.pc ≠ 2) (h22 : s.pc ≠ 22) : lineBAt s.nextPc = lineBAt s.pc := by
  simp only [lineBAt, State.nextPc_le_iff h2 (by decide), State.nextPc_le_iff h22 (by decide)]

/-- Where none of them is written, the next pc asks no more of them than this one. -/
theorem Writes.keeps_linesInv {s t : State} (w : Writes s t) (h : s.LinesInv) (quiet : ¬writesLinesAt s.pc) :
    t.LinesInv := by
  simp only [writesLinesAt] at quiet
  have pinA : t.pinA = s.pinA := w.pinA.resolve_right (by omega)
  have pinB : t.pinB = s.pinB := w.pinB.resolve_right (by omega)
  have ind : t.ind = s.ind := w.ind.resolve_right (by omega)
  have hit : t.hit = s.hit := w.hit.resolve_right (by omega)
  have levelA : lineAAt t.pc = lineAAt s.pc := by
    rcases w.pc with pc | pc <;> rw [pc]
    exact lineAAt_nextPc (by omega) (by omega)
  have levelB : lineBAt t.pc = lineBAt s.pc := by
    rcases w.pc with pc | pc <;> rw [pc]
    exact lineBAt_nextPc (by omega) (by omega)
  have hardwired := w.hardwired h.hardwired
  have pc : t.pc = s.pc ∨ t.pc = s.nextPc := w.pc
  obtain ⟨-, lineA, lineB, unwritten, configuration, normal, active, idle, tick, noHit, data, timeout, written⟩ := h
  simp only [State.nextPc] at pc
  constructor
  case hardwired => exact hardwired
  case lineA => rw [pinA, levelA, lineA]
  case lineB => rw [pinB, levelB, lineB]
  all_goals
    simp only [ind, hit]
    rcases pc with pc | pc <;> rw [pc] <;> grind

theorem State.LinesInv.pinWritten {s : State} {p : Line} {v : Level} (h : s.LinesInv)
    (at_pc : s.pc = 1 ∧ p = .a ∧ v = .one ∨ s.pc = 2 ∧ p = .b ∧ v = .one ∨
      s.pc = 21 ∧ p = .a ∧ v = .zero ∨ s.pc = 22 ∧ p = .b ∧ v = .zero) :
    (((s.setLatch p v).emit (.pin p v)).goto (s.pc + 1)).LinesInv := by
  have noHit : s.hit = false := h.hitUnwritten (by omega)
  have ind : s.ind = if s.pc ≤ 3 then none else some .on := by
    split
    · exact h.indUnwritten ‹_›
    · exact h.indConfiguration (by omega) (by omega)
  rcases at_pc with ⟨hp, rfl, rfl⟩ | ⟨hp, rfl, rfl⟩ | ⟨hp, rfl, rfl⟩ | ⟨hp, rfl, rfl⟩ <;> constructor
  case hardwired | hardwired | hardwired | hardwired => exact h.hardwired
  all_goals simp [hp, h.lineA, h.lineB, ind, noHit, lineAAt, lineBAt]

theorem State.LinesInv.indicator {s : State} {v : OnOff} (h : s.LinesInv)
    (at_pc : s.pc = 3 ∧ v = .on ∨ s.pc = 23 ∧ v = .off ∨ s.pc = 30 ∧ v = .on ∨ s.pc = 33 ∧ v = .off) :
    ((s.indicatorSet v).goto (s.pc + 1)).LinesInv := by
  have hit : s.hit = decide (s.pc = 30) := by
    rcases at_pc with ⟨hp, -⟩ | ⟨hp, -⟩ | ⟨hp, -⟩ | ⟨hp, -⟩ <;> simp only [hp, decide_true]
    · exact h.hitUnwritten (by omega)
    · exact h.hitUnwritten (by omega)
    · exact h.hitData (by omega) (by omega)
    · exact h.hitTimeout (by omega)
  rcases at_pc with ⟨hp, rfl⟩ | ⟨hp, rfl⟩ | ⟨hp, rfl⟩ | ⟨hp, rfl⟩ <;> constructor
  case hardwired | hardwired | hardwired | hardwired => exact h.hardwired
  all_goals simp [hp, h.lineA, h.lineB, hit, lineAAt, lineBAt]

theorem State.LinesInv.polled {s : State} (r : Bool) (h : s.LinesInv) (at_pc : s.pc = 27) :
    ((s.disarm.setHit r).goto 28).LinesInv := by
  constructor
  case hardwired => exact h.hardwired
  case indWritten => exact fun _ => h.indWritten (by omega)
  all_goals simp [at_pc, h.lineA, h.lineB, lineAAt, lineBAt]

theorem BlockMove.keeps_linesInv {s t : State} (m : BlockMove s t) (h : s.LinesInv) : t.LinesInv := by
  by_cases writes : writesLinesAt s.pc
  · simp only [writesLinesAt] at writes
    cases m with
    | pinWritten s1 p v drew at_pc =>
      obtain ⟨n, rfl⟩ := eq_of_drew drew
      exact State.LinesInv.pinWritten (s := { s with draws := n }) { h with } at_pc
    | indicator v at_pc => exact h.indicator at_pc
    | polled e r at_pc => exact h.polled r at_pc
    | pinFault | armed | waiting => exact { h with }
    | _ => omega
  · exact m.writes.keeps_linesInv h writes

theorem linesInv_keptByAgents : KeptByAgents State.LinesInv where
  hardwired h := h.hardwired
  agenda h hw := { h with hardwired := hw }
  block h _ m := m.keeps_linesInv h
  time h := { h with }
  moduleSend _ _ h := { h with }
  setCancel _ h := { h with }
  hostReset := linesInv_hostReset

/-- Settles O55: what each agent's move keeps. -/
theorem stepKeepsLines : Obligations.StepKeepsLines := fun _ _ h hs => linesInv_keptByAgents.step h hs

end Sys2Proof.Machine
end

section
/-! The modes' requests: `SETPIN` and the reserved modes (40_mode_controller.md R102, R104, 20_memory.md R57). -/
namespace Sys2Proof.Machine

/-- Settles O41: by the row's meaning and by the transitions that the modes have. -/
theorem reservedModesAreRefused : Obligations.ReservedModesAreRefused := ⟨fun _ _ _ => rfl, rfl, rfl⟩

theorem State.setPin_sure {s : State} (p : Line) (v : Level) (sure : s.params.pinWriteCanFail = false) :
    s.setPin p v = (s.pinWrite p v).advance := State.pinWriteThen_sure p v State.advance sure

/-- Settles O15: each row is `PinWrite` and the pc update. -/
theorem setPinWritesItsLine : Obligations.SetPinWritesItsLine := by
  refine ⟨rfl, rfl, rfl, rfl, fun s sure => ?_⟩
  have written (p : Line) (v : Level) := s.setPin_sure p v sure
  exact ⟨congrArg _ (written .a .one), congrArg _ (written .b .one), congrArg _ (written .a .zero),
    congrArg _ (written .b .zero)⟩

end Sys2Proof.Machine
end

section
/-! The two mode transitions under the earliest schedule (40_mode_controller.md R100, R101, R106). -/
namespace Sys2Proof.Machine

theorem run_of_step {s t : State} (k : Nat) (h : step s = .next t) : core.run (k + 1) s = core.run k t := by
  have hc : core.step s = .next t := h
  simp only [Host.Core.run, hc]

/-- With an empty agenda a ready block takes its step. -/
theorem step_ready {s : State} {i : Instr} (ready : s.blockReady = true) (free : s.agenda = [])
    (at_pc : microOpAt s.pc = some i) : step s = exec i s := by
  simp only [step, takeTurn, free, earliestTurn, ready, if_true, blockStep_microOp at_pc]

theorem step_unarmed {s : State} {i : Instr} (running : s.run = .run) (unarmed : s.deadline = none) (free : s.agenda = [])
    (at_pc : microOpAt s.pc = some i) : step s = exec i s :=
  step_ready ((State.blockReady_iff running).mpr (.inr (.inl unarmed))) free at_pc

/-- While a delay is not due, the earliest schedule lets time pass. -/
theorem run_delaying {i : Instr} (hi : i ∈ delays) {e : Nat} (k n : Nat) {s : State} (free : s.agenda = [])
    (at_pc : microOpAt s.pc = some i) (armed : s.deadline = some e) (early : s.now + n ≤ e) :
    core.run (k + n) s = core.run k { s with now := s.now + n } := by
  induction n generalizing s with
  | zero => rfl
  | succ n ih =>
    have waits : s.blockReady = false := State.blockReady_delaying at_pc hi armed (by omega)
    have passes : step s = .next s.timeStep := by simp [step, takeTurn, free, earliestTurn, waits]
    rw [← Nat.add_assoc, run_of_step _ passes, ih (s := s.timeStep) free at_pc armed (by simp; omega)]
    simp [State.timeStep, Nat.add_assoc, Nat.add_comm 1]

/-- A delay takes 52 steps: one to arm, 50 ms, and one to complete. -/
theorem run_delay {s : State} {i : Instr} (hi : i ∈ delays) (k : Nat) (running : s.run = .run) (unarmed : s.deadline = none)
    (free : s.agenda = []) (at_pc : microOpAt s.pc = some i) :
    core.run (k + 52) s = core.run k { s with now := s.now + 50, pc := s.pc + 1 } := by
  have arms : step s = .next (s.arm 50) := by
    rw [step_unarmed running unarmed free at_pc, (delays_run hi s).1, s.delay_unarmed 50 unarmed]
  have ready : ({ s.arm 50 with now := s.now + 50 } : State).blockReady = true :=
    (State.blockReady_iff (s := { s.arm 50 with now := s.now + 50 }) running).mpr
      (.inr (.inr (.inl ⟨s.now + 50, rfl, le_rfl⟩)))
  have completes : step { s.arm 50 with now := s.now + 50 } = .next { s with now := s.now + 50, pc := s.pc + 1 } := by
    rw [step_ready ready free at_pc, (delays_run hi _).1, State.delay_over 50 rfl le_rfl]
    simp [State.disarm, State.goto, State.arm, unarmed]
  rw [show k + 52 = k + 1 + 50 + 1 from rfl, run_of_step _ arms,
    run_delaying hi (k + 1) 50 (s := s.arm 50) free at_pc rfl le_rfl]
  exact run_of_step k completes

theorem step_setPin {s : State} {p : Line} {v : Level} (running : s.run = .run) (unarmed : s.deadline = none)
    (free : s.agenda = []) (sure : s.params.pinWriteCanFail = false)
    (at_pc : s.pc = 1 ∧ p = .a ∧ v = .one ∨ s.pc = 2 ∧ p = .b ∧ v = .one ∨
      s.pc = 21 ∧ p = .a ∧ v = .zero ∨ s.pc = 22 ∧ p = .b ∧ v = .zero) :
    step s = .next (s.pinWrite p v).advance := by
  rw [← s.setPin_sure p v sure]
  rcases at_pc with ⟨hp, rfl, rfl⟩ | ⟨hp, rfl, rfl⟩ | ⟨hp, rfl, rfl⟩ | ⟨hp, rfl, rfl⟩ <;>
    exact step_unarmed running unarmed free (by rw [hp]; rfl)

theorem step_setInd {s : State} {o : OnOff} (running : s.run = .run) (unarmed : s.deadline = none) (free : s.agenda = [])
    (at_pc : s.pc = 3 ∧ o = .on ∨ s.pc = 23 ∧ o = .off) : step s = .next (s.indicatorSet o).advance := by
  rcases at_pc with ⟨hp, rfl⟩ | ⟨hp, rfl⟩ <;> exact step_unarmed running unarmed free (by rw [hp]; rfl)

/-- A transition: both lines to its level, A first, then the indicator and the delay (40_mode_controller.md R100, R101). -/
theorem run_transition {s : State} {v : Level} {o : OnOff} (running : s.run = .run) (unarmed : s.deadline = none)
    (free : s.agenda = []) (sure : s.params.pinWriteCanFail = false)
    (at_pc : s.pc = 1 ∧ v = .one ∧ o = .on ∨ s.pc = 21 ∧ v = .zero ∧ o = .off) :
    core.run 55 s = .next { s with
      pc := s.pc + 4, pinA := some v, pinB := some v, ind := some o, now := s.now + 50
      trace := s.trace ++ [(.pin .a v, s.now), (.pin .b v, s.now), (.ind o, s.now)] } := by
  let s1 : State := (s.pinWrite .a v).advance
  let s2 : State := (s1.pinWrite .b v).advance
  let s3 : State := (s2.indicatorSet o).advance
  have pc1 : s1.pc = s.pc + 1 := rfl
  have pc2 : s2.pc = s.pc + 2 := rfl
  have pc3 : s3.pc = s.pc + 3 := rfl
  have first : step s = .next s1 := step_setPin running unarmed free sure (by grind)
  have second : step s1 = .next s2 := step_setPin running unarmed free sure (by grind)
  have third : step s2 = .next s3 := step_setInd running unarmed free (by grind)
  obtain ⟨i, hi, delay⟩ := microOpAt_delay (pc := s3.pc) (by omega)
  calc core.run 55 s
      _ = core.run 54 s1 := run_of_step 54 first
      _ = core.run 53 s2 := run_of_step 53 second
      _ = core.run 52 s3 := run_of_step 52 third
      _ = .next { s3 with now := s3.now + 50, pc := s3.pc + 1 } := run_delay hi 0 running unarmed free delay
      _ = _ := by simp [s1, s2, s3]

/-- Settles O19: each is a transition to its level. -/
theorem transitionsRun : Obligations.TransitionsRun := by
  intro s running unarmed free sure
  refine ⟨fun hp => ?_, fun hp => ?_⟩
  · rw [run_transition running unarmed free sure (.inl ⟨hp, rfl, rfl⟩), hp]
  · rw [run_transition running unarmed free sure (.inr ⟨hp, rfl, rfl⟩), hp]

end Sys2Proof.Machine
end

section
/-! No UART access falls inside a mode transition (40_mode_controller.md R110, 70_reset_and_hazards.md R243). -/
namespace Sys2Proof.Machine

/-- Driving a pattern neither transmits nor takes a byte from the receive buffer. -/
theorem State.drivePins_keeps_uart (s : State) (a b : Level) :
    txWrites (s.drivePins a b).trace = txWrites s.trace ∧ (s.drivePins a b).rx = s.rx := by
  obtain ⟨s1, drew, fault | ⟨s2, drew', fault | driven⟩⟩ := s.drivePins_cases a b
  · obtain ⟨n, rfl⟩ := eq_of_drew drew
    simp [fault, txWrites, Event.txBytes]
  · obtain ⟨n, rfl⟩ := eq_of_drew drew
    obtain ⟨n', rfl⟩ := eq_of_drew drew'
    simp [fault, txWrites, Event.txBytes]
  · obtain ⟨n, rfl⟩ := eq_of_drew drew
    obtain ⟨n', rfl⟩ := eq_of_drew drew'
    simp [driven, txWrites, Event.txBytes]

/-- The block neither sends nor reads at the pcs of a transition. -/
theorem BlockMove.keeps_uart {s t : State} (m : BlockMove s t) (hp : 1 ≤ s.pc ∧ s.pc ≤ 4 ∨ 21 ≤ s.pc ∧ s.pc ≤ 24) :
    txWrites t.trace = txWrites s.trace ∧ t.rx = s.rx := by
  constructor
  · rcases m.tx_cases with silent | ⟨bs, -, sends⟩
    · exact silent.tx
    · omega
  · rcases m.writes.rx with same | read | read
    · exact same
    · omega
    · omega

/-- Nor does a probe: its frames and messages are refused there. -/
theorem probe_keeps_uart {s t : State} {i : Instr} (kind : i.isMicroOp = false) (runs : exec i s = .next t)
    (hp : 1 ≤ s.pc ∧ s.pc ≤ 4 ∨ 21 ≤ s.pc ∧ s.pc ≤ 24) : txWrites t.trace = txWrites s.trace ∧ t.rx = s.rx := by
  rcases probe_cases kind runs with ⟨outside, -⟩ | ⟨-, rfl⟩ | ⟨-, -, rfl⟩
  · exact absurd hp (s.settled_iff.mp (by simp [State.settled, outside]))
  · exact s.drivePins_keeps_uart ..
  · exact s.drivePins_keeps_uart ..

/-- Settles O51: agent by agent. -/
theorem noUartInTransitions : Obligations.NoUartInTransitions := by
  intro s t hp no_reset h
  obtain ⟨rest, -, move⟩ := step_cases h
  have of_kept (kept : txWrites t.trace = txWrites s.trace ∧ t.rx = s.rx) :
      txWrites t.trace = txWrites s.trace ∧ ∃ bs, t.rx = s.rx ++ bs := ⟨kept.1, [], by simpa using kept.2⟩
  cases move with
  | block i at_pc running runs =>
    exact of_kept (BlockMove.keeps_uart (s := { s with agenda := rest }) (block_move at_pc runs) hp)
  | probe nbits w i head running row kind runs =>
    exact of_kept (probe_keeps_uart (s := { s with agenda := rest }) kind runs hp)
  | time moved => exact of_kept (by simp [moved])
  | passed moved => exact of_kept (by simp [moved])
  | environment n e due head moved =>
    subst moved
    cases e with
    | moduleSend b bs => exact ⟨rfl, b :: bs, rfl⟩
    | setCancel v => exact of_kept ⟨rfl, rfl⟩
    | hostReset p => simp [State.nextTurnIsReset, head] at no_reset

end Sys2Proof.Machine
end

section
/-! The codec's checks and field bytes (41_codec.md R121 to R126). -/
namespace Sys2Proof

/-- Appended bit vectors add up, each at its place. -/
theorem toNat_append_eq_add {m n : Nat} (x : BitVec m) (y : BitVec n) : (x ++ y).toNat = x.toNat * 2 ^ n + y.toNat := by
  rw [BitVec.toNat_append, ← Nat.shiftLeft_add_eq_or_of_lt y.isLt, Nat.shiftLeft_eq]

theorem spedByte_toNat (r : AirRate) : (spedByte r).toNat = 0x18 + r.code.toNat := by
  rw [spedByte, toNat_append_eq_add]
  rfl

theorem optionByte_toNat (x : Bool) (d : DriveMode) (w : BitVec 3) (f : Bool) (p : PowerLevel) :
    (optionByte x d w f p).toNat =
      x.toNat * 0x80 + d.isPushPull.toNat * 0x40 + w.toNat * 0x08 + f.toNat * 0x04 + p.code.toNat := by
  simp only [optionByte, bit, toNat_append_eq_add, BitVec.toNat_ofBool]
  omega

/-- The bps that an air rate stands for (00_scope.md R5). -/
def AirRate.bps : AirRate → Int
  | .bps300 => 300
  | .bps1200 => 1200
  | .bps2400 => 2400
  | .bps4800 => 4800
  | .bps9600 => 9600
  | .bps19200 => 19200

end Sys2Proof

namespace Sys2Proof.Machine

theorem airRateOf_eq_some_iff {r : Int} {rate : AirRate} : airRateOf r = some rate ↔ r = rate.bps := by
  constructor
  · intro found
    simp only [airRateOf] at found
    repeat' split at found
    all_goals cases found
    all_goals assumption
  · rintro rfl
    cases rate <;> rfl

theorem rateOk_iff {r : Int} : rateOk r = true ↔ ∃ rate, airRateOf r = some rate := Option.isSome_iff_exists

theorem rateOk_eq_false_iff {r : Int} : rateOk r = false ↔ airRateOf r = none := by
  rw [rateOk, Option.isSome_eq_false_iff, Option.isNone_iff_eq_none]

theorem rateOk_iff_mem {r : Int} :
    rateOk r = true ↔ r = 300 ∨ r = 1200 ∨ r = 2400 ∨ r = 4800 ∨ r = 9600 ∨ r = 19200 := by
  simp only [rateOk_iff, airRateOf_eq_some_iff]
  constructor
  · rintro ⟨rate, rfl⟩
    cases rate <;> decide
  · rintro (h | h | h | h | h | h)
    exacts [⟨.bps300, h⟩, ⟨.bps1200, h⟩, ⟨.bps2400, h⟩, ⟨.bps4800, h⟩, ⟨.bps9600, h⟩, ⟨.bps19200, h⟩]

/-- Settles O9: for every frequency that passes the check. -/
theorem channelByteExact : Obligations.ChannelByteExact := ⟨fun _ => channelByte_of_freqOk, rfl⟩

/-- Settles O11: the five fields, each at its place. -/
theorem optionByteSum : Obligations.OptionByteSum := by
  refine ⟨fun x d w f p => ?_, rfl, rfl, rfl, rfl⟩
  rw [optionByte_toNat, isPushPull_eq_decide]

end Sys2Proof.Machine
end

section
/-! What `VALIDATE` does, check by check (41_codec.md R121, R122, R130). -/
namespace Sys2Proof.Machine

theorem exec_validate_builds {s : State} {rate : AirRate} (freq : freqOk s.params.freqMHz = true)
    (found : airRateOf s.params.airRateBps = some rate) :
    exec .validate s = .next (({ s with cfg := some (registersFor s.params rate) } : State).goto 1) := by
  simp only [exec, execValidate, freq, found]

theorem exec_validate_badFrequency {s : State} (freq : freqOk s.params.freqMHz = false)
    (rate : rateOk s.params.airRateBps = true) : exec .validate s = .next (s.raiseFatal .outOfRangeFrequency) := by
  obtain ⟨r, found⟩ := rateOk_iff.mp rate
  simp only [exec, execValidate, freq, found, State.raiseConfigurationError_frequency]

theorem exec_validate_badRate {s : State} (freq : freqOk s.params.freqMHz = true)
    (rate : rateOk s.params.airRateBps = false) : exec .validate s = .next (s.raiseFatal .unknownAirRate) := by
  simp only [exec, execValidate, freq, rateOk_eq_false_iff.mp rate, State.raiseConfigurationError_rate]

/-- With both checks failing the code is a draw (log entry 6). -/
theorem exec_validate_bothBad {s : State} (freq : freqOk s.params.freqMHz = false)
    (rate : rateOk s.params.airRateBps = false) :
    ∃ c, (c = .outOfRangeFrequency ∨ c = .unknownAirRate) ∧ exec .validate s = .next (s.drawn.raiseFatal c) := by
  simp only [exec, execValidate, freq, rateOk_eq_false_iff.mp rate]
  cases Config.reportsFrequency s.draws with
  | true => exact ⟨_, .inl rfl, rfl⟩
  | false => exact ⟨_, .inr rfl, rfl⟩

/-- Settles O12: one equation for each outcome of the two checks. -/
theorem validateOutcome : Obligations.ValidateOutcome := by
  refine ⟨rfl, fun s => ⟨fun rate freq found => exec_validate_builds freq found, exec_validate_badFrequency,
    exec_validate_badRate, fun freq rate => ?_⟩⟩
  obtain ⟨c, code, fatal⟩ := exec_validate_bothBad freq rate
  exact ⟨c, s.draws + 1, code, fatal⟩

/-- Settles O8: the check as bounds, and what `VALIDATE` does outside them. -/
theorem frequencyBounds : Obligations.FrequencyBounds := by
  refine ⟨fun f => freqOk_iff, fun s outside rate => ?_, rfl, rfl, rfl, rfl, rfl⟩
  have freq : freqOk s.params.freqMHz = false := by rwa [← Bool.not_eq_true, freqOk_iff]
  exact ⟨_, exec_validate_badFrequency freq rate, rfl, rfl, rfl⟩

/-- Settles O10: the check and the codes rate by rate, and what `VALIDATE` does on another rate. -/
theorem airRateCodes : Obligations.AirRateCodes := by
  refine ⟨fun r => rateOk_iff_mem, fun r => rateOk_iff.mp,
    fun s rate freq => ⟨_, exec_validate_badRate freq rate, rfl, rfl, rfl⟩, fun r rate found => ?_⟩
  obtain ⟨c0, c1, c2, c3, c4, c5⟩ : (r = 300 → rate.code = 0#3) ∧ (r = 1200 → rate.code = 1#3) ∧
      (r = 2400 → rate.code = 2#3) ∧ (r = 4800 → rate.code = 3#3) ∧ (r = 9600 → rate.code = 4#3) ∧ (r = 19200 → rate.code = 5#3) := by
    rw [airRateOf_eq_some_iff.mp found]
    cases rate <;> decide
  exact ⟨c0, c1, c2, c3, c4, c5, spedByte_toNat rate, spedByte_code rate⟩

end Sys2Proof.Machine
end

section
/-! The three frames' `SEND`s (41_codec.md R131 to R134, 20_memory.md R53). -/
namespace Sys2Proof.Machine

theorem exec_sendWc_of_cfg {s : State} {c : ConfigRegisters} (built : s.cfg = some c) :
    exec .sendWc s = .next ((s.uartWrite (writeConfigFrame c)).goto 14) := by
  simp only [exec, execSendWc, built]

theorem exec_sendWc_of_no_cfg {s : State} (missing : s.cfg = none) : exec .sendWc s = .fault .cfgNotBuilt := by
  simp only [exec, execSendWc, missing]

/-- Settles O13: each row is `UartWrite` of its frame and the pc update, `SEND RC` the same at both its pcs. -/
theorem queryFramesAreSent : Obligations.QueryFramesAreSent := by
  refine ⟨rfl, rfl, rfl, fun s => ⟨rfl, fun i hi => ?_⟩⟩
  rcases List.mem_pair.mp hi with rfl | rfl
  · rfl
  · rfl

/-- Settles O14: by whether a configuration is there. -/
theorem writeConfigFrameIsSent : Obligations.WriteConfigFrameIsSent :=
  ⟨rfl, fun _ => ⟨fun _ => exec_sendWc_of_cfg, exec_sendWc_of_no_cfg⟩⟩

end Sys2Proof.Machine
end

section
/-! The least clock value of each pc (42_sequencer.md R160). -/
namespace Sys2Proof.Machine

/-- Only a delay leads to a pc with a later least clock value. -/
theorem leastClock_nextPc {s : State}
    (no_delay : ¬(s.pc = 4 ∨ s.pc = 6 ∨ s.pc = 10 ∨ s.pc = 14 ∨ s.pc = 18 ∨ s.pc = 24)) :
    leastClock s.nextPc = leastClock s.pc := by
  have same {n : Nat} (off : s.pc ≠ n) (early : n ≤ 25) := State.nextPc_le_iff off early
  simp only [leastClock, same (n := 4) (by omega) (by decide), same (n := 6) (by omega) (by decide),
    same (n := 10) (by omega) (by decide), same (n := 14) (by omega) (by decide), same (n := 18) (by omega) (by decide),
    same (n := 24) (by omega) (by decide)]

/-- Each wait is long enough for the least clock value of the pc behind it. -/
theorem leastClock_succ_le_add {p : Params} {pc d : Nat} (wait : waitMs p pc = some d) :
    leastClock (pc + 1) ≤ leastClock pc + d := by
  have at_pc := (waitMs_ne_none p pc).mp (by simp [wait])
  rcases at_pc with rfl | rfl | rfl | rfl | rfl | rfl | rfl <;> cases wait <;>
    simp [leastClock, Config.tSettleMs, Config.tFrameMs]

/-- A pc is reached by a delay that is over, whose end was late enough, or from a pc with the same least clock value. -/
theorem BlockMove.keeps_clock {s t : State} (m : BlockMove s t) (h : s.TimingInv) : leastClock t.pc ≤ t.now := by
  rw [m.writes.now]
  rcases m.wait_cases with ⟨d, -, rfl⟩ | rfl | ⟨e, armed, due, -, pc⟩ | no_wait
  · exact h.clock
  · exact h.clock
  · rw [pc]
    by_cases delay : s.pc = 4 ∨ s.pc = 6 ∨ s.pc = 10 ∨ s.pc = 14 ∨ s.pc = 18 ∨ s.pc = 24
    · rw [← State.succ_eq_nextPc (by omega)]
      exact (h.armedClock e armed).trans (due.resolve_right (by omega))
    · exact (leastClock_nextPc delay).trans_le h.clock
  · have := (waitMs_ne_none s.params s.pc).not.mp (not_not.mpr no_wait)
    rcases m.writes.pc with pc | pc <;> rw [pc]
    · exact h.clock
    · exact (leastClock_nextPc (by omega)).trans_le h.clock

theorem BlockMove.keeps_armedClock {s t : State} (m : BlockMove s t) (h : s.TimingInv) :
    ∀ e, t.deadline = some e → leastClock (t.pc + 1) ≤ e := by
  rcases m.wait_cases with ⟨d, wait, rfl⟩ | rfl | ⟨e, -, -, disarmed, -⟩ | no_wait
  · rintro e ⟨⟩
    exact (leastClock_succ_le_add wait).trans (Nat.add_le_add_right h.clock d)
  · exact h.armedClock
  · simp [disarmed]
  · simp [m.unarmed h.armedAtWait no_wait]

theorem BlockMove.keeps_timingInv {s t : State} (m : BlockMove s t) (h : s.TimingInv) : t.TimingInv where
  hardwired := m.writes.hardwired h.hardwired
  clock := m.keeps_clock h
  armedAtWait := m.keeps_armedAtWait h.armedAtWait
  armedClock := m.keeps_armedClock h

theorem timingInv_keptByAgents : KeptByAgents State.TimingInv where
  hardwired h := h.hardwired
  agenda h hw := { h with hardwired := hw }
  block h _ m := m.keeps_timingInv h
  time h := { h with clock := Nat.le_succ_of_le h.clock }
  moduleSend _ _ h := { h with }
  setCancel _ h := { h with }
  hostReset := timingInv_hostReset

/-- Settles O57: what each agent's move keeps. -/
theorem stepKeepsTiming : Obligations.StepKeepsTiming := fun _ _ h hs => timingInv_keptByAgents.step h hs

end Sys2Proof.Machine
end

section
/-! The log of a response and its hexadecimal rendering (42_sequencer.md R156). -/
namespace Sys2Proof.Machine

/-- Settles O22: each row is `Log` of the buffer and the pc update, and the rendering goes byte by byte. -/
theorem responsesAreLogged : Obligations.ResponsesAreLogged := by
  refine ⟨by decide, fun s x hx => ?_, fun _ _ => rfl, fun _ _ _ _ => rfl, by decide, fun _ _ => rfl⟩
  simp only [List.mem_cons, List.not_mem_nil, or_false] at hx
  rcases hx with rfl | rfl | rfl | rfl <;> rfl

theorem hexText_cons (b : Byte) (bs : List Byte) :
    hexText (b :: bs) = hexDigit (b.toNat / 16) :: hexDigit (b.toNat % 16) :: hexText bs := rfl

theorem hexDigit_lowercase : ∀ n < 16, ('0' ≤ hexDigit n ∧ hexDigit n ≤ '9') ∨ ('a' ≤ hexDigit n ∧ hexDigit n ≤ 'f') := by
  decide

theorem hexDigit_inj : ∀ m < 16, ∀ n < 16, hexDigit m = hexDigit n → m = n := by decide

theorem high_digit_lt (b : Byte) : b.toNat / 16 < 16 := Nat.div_lt_of_lt_mul b.isLt

theorem low_digit_lt (b : Byte) : b.toNat % 16 < 16 := Nat.mod_lt _ (by decide)

theorem hexText_length (bs : List Byte) : (hexText bs).length = 2 * bs.length := by
  induction bs with
  | nil => rfl
  | cons b bs ih => simp [hexText_cons, ih, Nat.mul_add]

theorem hexText_lowercase {bs : List Byte} {c : Char} (h : c ∈ hexText bs) :
    ('0' ≤ c ∧ c ≤ '9') ∨ ('a' ≤ c ∧ c ≤ 'f') := by
  obtain ⟨b, -, hb⟩ := List.mem_flatMap.mp h
  rcases List.mem_pair.mp hb with rfl | rfl
  · exact hexDigit_lowercase _ (high_digit_lt b)
  · exact hexDigit_lowercase _ (low_digit_lt b)

/-- Two digits give their byte back. -/
theorem byte_eq_of_hexDigits {b c : Byte} (high : hexDigit (b.toNat / 16) = hexDigit (c.toNat / 16))
    (low : hexDigit (b.toNat % 16) = hexDigit (c.toNat % 16)) : b = c := by
  have quotients := hexDigit_inj _ (high_digit_lt b) _ (high_digit_lt c) high
  have remainders := hexDigit_inj _ (low_digit_lt b) _ (low_digit_lt c) low
  exact BitVec.eq_of_toNat_eq (by omega)

theorem hexText_injective : Function.Injective hexText := by
  intro bs
  induction bs with
  | nil =>
    intro cs h
    cases cs with
    | nil => rfl
    | cons c cs => cases h
  | cons b bs ih =>
    intro cs h
    cases cs with
    | nil => cases h
    | cons c cs =>
      simp only [hexText_cons, List.cons.injEq] at h
      obtain ⟨high, low, rest⟩ := h
      rw [byte_eq_of_hexDigits high low, ih rest]

/-- Settles O23: by the digits of each byte. -/
theorem hexTextIsFaithful : Obligations.HexTextIsFaithful := fun bs _ =>
  ⟨hexText_length bs, fun _ => hexText_lowercase, fun h => hexText_injective h⟩

end Sys2Proof.Machine
end

section
/-! The four frame exchanges under the earliest schedule (42_sequencer.md R152 to R156). -/
namespace Sys2Proof.Machine

/-- The `SEND` of an exchange, with no wait armed (41_codec.md R132 to R134). -/
theorem step_sendFrame {s : State} {c : ConfigRegisters} {frame : List Byte} (running : s.run = .run)
    (unarmed : s.deadline = none) (free : s.agenda = []) (built : s.cfg = some c)
    (at_pc : s.pc = 5 ∧ frame = queryVersionFrame ∨ (s.pc = 9 ∨ s.pc = 17) ∧ frame = readConfigFrame ∨
      s.pc = 13 ∧ frame = writeConfigFrame c) :
    step s = .next (s.uartWrite frame).advance := by
  have runs {i : Instr} := step_unarmed (i := i) running unarmed free
  rcases at_pc with ⟨hp, rfl⟩ | ⟨hp | hp, rfl⟩ | ⟨hp, rfl⟩
  · rw [runs (by rw [hp]; rfl), State.advance_eq, State.uartWrite_eq, State.emit_pc, hp]; rfl
  · exact runs (by rw [hp]; rfl)
  · exact runs (by rw [hp]; rfl)
  · rw [runs (by rw [hp]; rfl), exec_sendWc_of_cfg built, State.advance_eq, State.uartWrite_eq, State.emit_pc, hp]

theorem step_readResponse {s : State} (running : s.run = .run) (unarmed : s.deadline = none) (free : s.agenda = [])
    (at_pc : s.pc = 7 ∨ s.pc = 11 ∨ s.pc = 15 ∨ s.pc = 19) : step s = .next (readResponse s) := by
  rcases at_pc with hp | hp | hp | hp <;> exact step_unarmed running unarmed free (by rw [hp]; rfl)

theorem step_logResponse {s : State} {tag : ExchangeTag} (running : s.run = .run) (unarmed : s.deadline = none)
    (free : s.agenda = [])
    (at_pc : s.pc = 8 ∧ tag = .queryVersion ∨ s.pc = 12 ∧ tag = .readOld ∨ s.pc = 16 ∧ tag = .writeNew ∨
      s.pc = 20 ∧ tag = .readBack) : step s = .next (logResponse tag s) := by
  rcases at_pc with ⟨hp, rfl⟩ | ⟨hp, rfl⟩ | ⟨hp, rfl⟩ | ⟨hp, rfl⟩ <;>
    exact step_unarmed running unarmed free (by rw [hp]; rfl)

/-- An exchange: its frame, the inter-frame gate, the single read and its log (R154). -/
theorem run_exchange {s : State} {c : ConfigRegisters} {frame : List Byte} {tag : ExchangeTag} (running : s.run = .run)
    (unarmed : s.deadline = none) (free : s.agenda = []) (built : s.cfg = some c)
    (at_pc : s.pc = 5 ∧ frame = queryVersionFrame ∧ tag = .queryVersion ∨
      s.pc = 9 ∧ frame = readConfigFrame ∧ tag = .readOld ∨ s.pc = 13 ∧ frame = writeConfigFrame c ∧ tag = .writeNew ∨
      s.pc = 17 ∧ frame = readConfigFrame ∧ tag = .readBack) :
    core.run 55 s = .next { s with
      pc := s.pc + 4, rbuf := s.rx, rx := [], now := s.now + 50
      trace := s.trace ++ [(.tx frame, s.now), (.log (.logHex tag s.rx), s.now + 50)] } := by
  let s1 : State := (s.uartWrite frame).advance
  let s2 : State := { s1 with now := s1.now + 50, pc := s1.pc + 1 }
  let s3 : State := readResponse s2
  have pc1 : s1.pc = s.pc + 1 := rfl
  have pc2 : s2.pc = s.pc + 2 := rfl
  have pc3 : s3.pc = s.pc + 3 := rfl
  have sends : step s = .next s1 := step_sendFrame running unarmed free built (by grind)
  obtain ⟨i, hi, delay⟩ := microOpAt_delay (pc := s1.pc) (by omega)
  have reads : step s2 = .next s3 := step_readResponse running unarmed free (by omega)
  have logs : step s3 = .next (logResponse tag s3) := step_logResponse running unarmed free (by grind)
  calc core.run 55 s
      _ = core.run 54 s1 := run_of_step 54 sends
      _ = core.run 2 s2 := run_delay hi 2 running unarmed free delay
      _ = core.run 1 s3 := run_of_step 1 reads
      _ = .next (logResponse tag s3) := run_of_step 0 logs
      _ = _ := by simp [s1, s2, s3, readResponse, logResponse, State.readToRbuf, State.clearRx, State.emit, State.goto]

/-- Settles O24: each is an exchange of its frame. -/
theorem exchangeRun : Obligations.ExchangeRun := by
  intro s c running unarmed free built x hx hp
  simp only [List.mem_cons, List.not_mem_nil, or_false] at hx
  rw [← hp]
  refine run_exchange running unarmed free built ?_
  rcases hx with rfl | rfl | rfl | rfl
  · exact .inl ⟨hp, rfl, rfl⟩
  · exact .inr (.inl ⟨hp, rfl, rfl⟩)
  · exact .inr (.inr (.inl ⟨hp, rfl, rfl⟩))
  · exact .inr (.inr (.inr ⟨hp, rfl, rfl⟩))

end Sys2Proof.Machine
end

section
/-! Where the pc can go: on by one through the configuration phase, and never back to it (42_sequencer.md R157, R159,
43_duplex_loop.md R197, 70_reset_and_hazards.md R247). -/
namespace Sys2Proof.Machine

/-- Settles O25: below the loop a completed micro-operation leads on by one. -/
theorem noBranchingOnFailure : Obligations.NoBranchingOnFailure := by
  intro s t _ high hw h
  have succ : s.pc + 1 = s.nextPc := State.succ_eq_nextPc (by omega)
  rcases run_step_cases hw h with ⟨-, rest, w⟩ | ⟨rest, rfl⟩ | ⟨bs, v, rest, rfl⟩
  · rw [succ]
    exact w.pc
  · exact .inl rfl
  · exact .inl rfl

/-- From `s` to `t` the block stays out of the configuration phase, and no line goes high. -/
structure StaysOut (s t : State) : Prop where
  entry : s.pc = 25 → t.pc = 25 ∨ t.pc = 26
  loop : 26 ≤ s.pc → 26 ≤ t.pc ∧ t.pc ≤ 35
  pinA : t.pinA = s.pinA ∨ t.pinA = some .zero
  pinB : t.pinB = s.pinB ∨ t.pinB = some .zero

theorem StaysOut.of_pc_eq {s t : State} (high : s.pc ≤ 35) (pc : t.pc = s.pc)
    (pinA : t.pinA = s.pinA ∨ t.pinA = some .zero) (pinB : t.pinB = s.pinB ∨ t.pinB = some .zero) : StaysOut s t where
  entry := by omega
  loop := by omega
  pinA := pinA
  pinB := pinB

theorem State.nextPc_in_loop {s : State} (low : 26 ≤ s.pc) (high : s.pc ≤ 35) : 26 ≤ s.nextPc ∧ s.nextPc ≤ 35 := by
  simp only [State.nextPc]
  split_ifs <;> omega

theorem Writes.staysOut {s t : State} (w : Writes s t) (low : 25 ≤ s.pc) (high : s.pc ≤ 35) : StaysOut s t := by
  have pinA : t.pinA = s.pinA := w.pinA.resolve_right (by omega)
  have pinB : t.pinB = s.pinB := w.pinB.resolve_right (by omega)
  rcases w.pc with pc | pc
  · exact .of_pc_eq high pc (.inl pinA) (.inl pinB)
  · exact ⟨fun entry => .inr (by simp [pc, State.nextPc, entry]), fun loop => pc ▸ State.nextPc_in_loop loop high, .inl pinA,
      .inl pinB⟩

/-- Driving both lines low moves neither the pc nor a line high. -/
theorem State.drivePins_zero_staysOut {s : State} (high : s.pc ≤ 35) : StaysOut s (s.drivePins .zero .zero) := by
  obtain ⟨s1, drew, fault | ⟨s2, drew', fault | driven⟩⟩ := s.drivePins_cases .zero .zero
  · obtain ⟨n, rfl⟩ := eq_of_drew drew
    exact .of_pc_eq high (by simp [fault]) (by simp [fault]) (by simp [fault])
  · obtain ⟨n, rfl⟩ := eq_of_drew drew
    obtain ⟨n', rfl⟩ := eq_of_drew drew'
    exact .of_pc_eq high (by simp [fault]) (by simp [fault]) (by simp [fault])
  · obtain ⟨n, rfl⟩ := eq_of_drew drew
    obtain ⟨n', rfl⟩ := eq_of_drew drew'
    exact .of_pc_eq high (by simp [driven]) (by simp [driven]) (by simp [driven])

theorem probe_staysOut {s t : State} {i : Instr} (kind : i.isMicroOp = false) (runs : exec i s = .next t)
    (low : 25 ≤ s.pc) (high : s.pc ≤ 35) : StaysOut s t := by
  rcases probe_cases kind runs with ⟨-, -, bs, -, rfl⟩ | ⟨-, rfl⟩ | ⟨-, early, -⟩
  · exact .of_pc_eq high rfl (.inl rfl) (.inl rfl)
  · exact State.drivePins_zero_staysOut high
  · omega

/-- Once the configuration phase is over, no agent's move but a reset leads back. -/
theorem step_staysOut {s t : State} (low : 25 ≤ s.pc) (high : s.pc ≤ 35) (no_reset : s.nextTurnIsReset = false)
    (h : step s = .next t) : StaysOut s t := by
  obtain ⟨rest, -, move⟩ := step_cases h
  cases move with
  | block i at_pc running runs =>
    exact { (block_move (s := { s with agenda := rest }) at_pc runs).writes.staysOut low high with }
  | probe nbits w i head running row kind runs =>
    exact { probe_staysOut (s := { s with agenda := rest }) kind runs low high with }
  | time moved => exact moved ▸ .of_pc_eq high rfl (.inl rfl) (.inl rfl)
  | passed moved => exact moved ▸ .of_pc_eq high rfl (.inl rfl) (.inl rfl)
  | environment n e due head moved =>
    subst moved
    cases e with
    | moduleSend | setCancel => exact .of_pc_eq high rfl (.inl rfl) (.inl rfl)
    | hostReset p => simp [State.nextTurnIsReset, head] at no_reset

theorem step_probe_microOp {s : State} {nbits w pc : Nat} {i : Instr} {rest : List Turn} (running : s.run = .run)
    (head : s.agenda = .issue nbits w :: rest) (row : decodeTableWord nbits w = some i) (coded : encode i = .micro pc) :
    step s = .refused .selectedByPc := by
  have kind : i.isMicroOp = true := by simp only [Instr.isMicroOp, coded]
  simp only [step, takeTurn, head, issueTurn, running, row, kind, if_true]

/-- Settles O26: agent by agent, and by the probe's refusal. -/
theorem noReentry : Obligations.NoReentry := by
  refine ⟨fun s t low high no_reset h => ?_, fun _ _ _ _ _ _ => step_probe_microOp⟩
  obtain ⟨entry, loop, pinA, pinB⟩ := step_staysOut low high no_reset h
  exact ⟨entry, loop, pinA, pinB⟩

end Sys2Proof.Machine
end

section
/-! The step relation at a micro-operation (42_sequencer.md R151). -/
namespace Sys2Proof.Machine

theorem step_waiting {s : State} (waits : s.blockReady = false) (free : s.agenda = []) : step s = .next s.timeStep := by
  simp [step, takeTurn, free, earliestTurn, waits]

theorem step_block_turn {s : State} {rest : List Turn} (head : s.agenda = .block :: rest) :
    step s = if s.blockReady then blockStep { s with agenda := rest } else .next { s with agenda := rest } := by
  simp only [step, takeTurn, head, blockTurn, blockReady_agenda]

/-- Settles O42: by whether the block is ready, and when it is. -/
theorem stepRunsTheMicroOp : Obligations.StepRunsTheMicroOp := by
  refine fun s i at_pc => ⟨fun free ready => step_ready ready free at_pc, fun free waits => step_waiting waits free,
    fun rest head ready => ?_, fun rest head waits => ?_, State.blockReady_run, State.blockReady_iff⟩
  · rw [step_block_turn head, if_pos ready]
    exact blockStep_microOp at_pc
  · rw [step_block_turn head, waits]
    rfl

end Sys2Proof.Machine
end

section
/-! The loop's micro-operations, row by row (43_duplex_loop.md R181 to R194, 20_memory.md R55). -/
namespace Sys2Proof.Machine

/-- Settles O27: `LOOPINIT` sets the two elements and the pc. -/
theorem loopStarts : Obligations.LoopStarts := ⟨rfl, fun _ => rfl⟩

theorem exec_tick_counts {s : State} (go : s.cancel = false) : exec .tick s = .next ((s.setCnt (s.cnt + 1)).goto 27) := by
  simp only [exec, execTick, go, Bool.false_eq_true, if_false]

theorem exec_tick_stops {s : State} (cancelled : s.cancel = true) : exec .tick s = .next s.stop := by
  simp only [exec, execTick, cancelled, if_true]

/-- Settles O28: by the cancel input. -/
theorem tickCountsOrStops : Obligations.TickCountsOrStops := ⟨rfl, fun _ => ⟨exec_tick_counts, exec_tick_stops⟩⟩

theorem execPollTPoll_arms {s : State} (unarmed : s.deadline = none) :
    execPollTPoll s = .next (s.arm s.params.tPollMs) := by
  simp only [execPollTPoll, unarmed]

/-- At the poll the block has no step before the deadline while nothing is received. -/
theorem State.blockReady_polling {s : State} {e : Nat} (at_pc : s.pc = 27) (armed : s.deadline = some e)
    (empty : s.rx = []) (early : s.now < e) : s.blockReady = false := by
  have poll : microOpAt s.pc = some .pollTPoll := by rw [at_pc]; rfl
  by_cases running : s.run = .run
  · rw [State.blockReady_microOp running poll]
    simp [microOpReady, State.waitReady, armed, empty, early]
  · exact State.blockReady_ended running

/-- Settles O29: the poll arms, completes in one of its two ways, or leaves the block without a step. -/
theorem pollWaitsForData : Obligations.PollWaitsForData := by
  refine ⟨rfl, fun s => ⟨execPollTPoll_arms, fun e armed data => execPollTPoll_data armed data,
    fun e armed empty due => execPollTPoll_timeout armed empty due, fun e armed empty early at_pc => ?_⟩⟩
  have waits : s.blockReady = false := State.blockReady_polling at_pc armed empty early
  exact ⟨waits, by simp [blockTurn, waits]⟩

theorem exec_branchHit_of_hit {s : State} (hit : s.hit = true) : exec .branchHit s = .next (s.goto 29) := by
  simp only [exec, execBranchHit, hit, if_true]

theorem exec_branchHit_of_not_hit {s : State} (missed : s.hit = false) : exec .branchHit s = .next (s.goto 33) := by
  simp only [exec, execBranchHit, missed, Bool.false_eq_true, if_false]

/-- Settles O30: by the poll's result. -/
theorem branchOnHit : Obligations.BranchOnHit := ⟨rfl, fun _ => ⟨exec_branchHit_of_hit, exec_branchHit_of_not_hit⟩⟩

/-- Settles O31: each row is `UartWrite` of its message and the pc update. -/
theorem messagesAreSent : Obligations.MessagesAreSent := ⟨rfl, rfl, fun _ => ⟨rfl, rfl⟩⟩

theorem exec_logAct_eq (s : State) :
    exec .logAct s = .next { s with
      nlOwed := false, pc := 26
      trace := s.trace ++
        ((if s.nlOwed then [(.log .logNewline, s.now)] else []) ++
          [(.log (.logActivity (decodeText s.params.decode s.inbound) s.cnt), s.now)]) } := by
  simp only [exec, execLogAct, State.payNewline_eq, State.logEvent, State.emit, State.goto, List.append_assoc]

/-- Settles O32: the newline owed, the activity line, and the pc update. -/
theorem activityIsLogged : Obligations.ActivityIsLogged := ⟨rfl, exec_logAct_eq⟩

/-- Settles O33: `LOGDOT` is `Log`, the newline owed and the pc update. -/
theorem dotIsLogged : Obligations.DotIsLogged := ⟨rfl, fun _ => rfl⟩

end Sys2Proof.Machine
end

section
/-! Both kinds of tick under the earliest schedule (43_duplex_loop.md R180, R184, R187 to R194, R198, log entry 11). -/
namespace Sys2Proof.Machine

theorem step_of_exec {s t : State} {i : Instr} (running : s.run = .run) (unarmed : s.deadline = none) (free : s.agenda = [])
    (at_pc : microOpAt s.pc = some i) (runs : exec i s = .next t) : step s = .next t :=
  (step_unarmed running unarmed free at_pc).trans runs

/-- While the block has no step, the earliest schedule lets time pass. -/
theorem run_timePasses (k n : Nat) {s : State} (free : s.agenda = [])
    (waits : ∀ m < n, ({ s with now := s.now + m } : State).blockReady = false) :
    core.run (k + n) s = core.run k { s with now := s.now + n } := by
  induction n generalizing s with
  | zero => rfl
  | succ n ih =>
    have later (m : Nat) : s.now + 1 + m = s.now + (m + 1) := by omega
    have passes : step s = .next s.timeStep := step_waiting (waits 0 (by omega)) free
    have waits_later (m : Nat) (hm : m < n) :
        ({ s.timeStep with now := s.timeStep.now + m } : State).blockReady = false := by
      simpa [State.timeStep, later] using waits (m + 1) (by omega)
    rw [← Nat.add_assoc, run_of_step _ passes, ih (s := s.timeStep) free waits_later]
    simp [State.timeStep, later]

/-- From pc 26 the count, the arming of the poll, the wait of `d` ms that ends it, and the branch on its result `r`. -/
theorem run_polled {s : State} {r : Bool} {d : Nat} (k : Nat) (running : s.run = .run) (unarmed : s.deadline = none)
    (free : s.agenda = []) (at_pc : s.pc = 26) (go : s.cancel = false)
    (result : r = true ∧ s.rx ≠ [] ∧ d = 0 ∨ r = false ∧ s.rx = [] ∧ d = s.params.tPollMs) :
    core.run (k + 2 + d + 2) s =
      core.run k { s with cnt := s.cnt + 1, hit := r, now := s.now + d, pc := if r then 29 else 33 } := by
  let s1 : State := (s.setCnt (s.cnt + 1)).goto 27
  let s2 : State := s1.arm s.params.tPollMs
  let s3 : State := { s2 with now := s.now + d }
  let s4 : State := (s3.finishPoll r).goto 28
  have counts : step s = .next s1 := step_of_exec running unarmed free (by rw [at_pc]; rfl) (exec_tick_counts go)
  have arms : step s1 = .next s2 := step_of_exec running unarmed free rfl (execPollTPoll_arms unarmed)
  have waits : ∀ m < d, ({ s2 with now := s.now + m } : State).blockReady = false := fun m hm => by
    obtain ⟨-, -, rfl⟩ | ⟨-, empty, rfl⟩ := result
    · omega
    · exact State.blockReady_polling rfl rfl empty (Nat.add_lt_add_left hm s.now)
  have ready : s3.blockReady = true := by
    refine (State.blockReady_iff (s := s3) running).mpr (.inr (.inr ?_))
    obtain ⟨-, data, -⟩ | ⟨-, -, rfl⟩ := result
    · exact .inr ⟨rfl, data⟩
    · exact .inl ⟨_, rfl, le_rfl⟩
  have completes : step s3 = .next s4 := by
    refine (step_ready (i := .pollTPoll) ready free rfl).trans ?_
    obtain ⟨rfl, data, -⟩ | ⟨rfl, empty, rfl⟩ := result
    · exact execPollTPoll_data (s := s3) rfl data
    · exact execPollTPoll_timeout (s := s3) rfl empty le_rfl
  have branches : step s4 = .next (s4.goto (if r then 29 else 33)) := step_of_exec running rfl free rfl rfl
  calc core.run (k + 2 + d + 2) s
      _ = core.run (k + 2 + d + 1) s1 := run_of_step _ counts
      _ = core.run (k + 2 + d) s2 := run_of_step _ arms
      _ = core.run (k + 2) s3 := run_timePasses (k + 2) d free waits
      _ = core.run (k + 1) s4 := run_of_step _ completes
      _ = core.run k (s4.goto (if r then 29 else 33)) := run_of_step _ branches
      _ = _ := by simp [s1, s2, s3, s4, State.setCnt, State.arm, State.disarm, State.setHit, State.goto, unarmed]

/-- The rest of a tick on data: the bytes are read, the indicator is set, the reply is sent and the activity logged. -/
theorem run_dataTick {s : State} (running : s.run = .run) (unarmed : s.deadline = none) (free : s.agenda = [])
    (at_pc : s.pc = 29) :
    core.run 4 s = .next { s with
      ind := some .on, nlOwed := false, inbound := s.rx, rx := [], pc := 26
      trace := s.trace ++
        ([(.ind .on, s.now), (.tx (replyBytes s.cnt), s.now)] ++
          (if s.nlOwed then [(.log .logNewline, s.now)] else []) ++
          [(.log (.logActivity (decodeText s.params.decode s.rx) s.cnt), s.now)]) } := by
  let s1 : State := s.readToInbound.goto 30
  let s2 : State := (s1.indicatorSet .on).goto 31
  let s3 : State := (s2.uartWrite (replyBytes s.cnt)).goto 32
  have reads : step s = .next s1 := step_of_exec running unarmed free (by rw [at_pc]; rfl) rfl
  have shows : step s1 = .next s2 := step_of_exec running unarmed free rfl rfl
  have sends : step s2 = .next s3 := step_of_exec running unarmed free rfl rfl
  have logs := step_of_exec (s := s3) running unarmed free rfl (exec_logAct_eq s3)
  calc core.run 4 s
      _ = core.run 3 s1 := run_of_step 3 reads
      _ = core.run 2 s2 := run_of_step 2 shows
      _ = core.run 1 s3 := run_of_step 1 sends
      _ = _ := run_of_step 0 logs
      _ = _ := by
        simp [Host.Core.run, s1, s2, s3, State.readToInbound, State.clearRx, State.indicatorSet, State.emit, State.goto]

/-- The rest of a tick without data: the indicator is set, the heartbeat is sent and the dot logged. -/
theorem run_timeoutTick {s : State} (running : s.run = .run) (unarmed : s.deadline = none) (free : s.agenda = [])
    (at_pc : s.pc = 33) :
    core.run 3 s = .next { s with
      ind := some .off, nlOwed := true, pc := 26
      trace := s.trace ++ [(.ind .off, s.now), (.tx (heartbeatBytes s.cnt), s.now), (.log .logDot, s.now)] } := by
  let s1 : State := (s.indicatorSet .off).goto 34
  let s2 : State := (s1.uartWrite (heartbeatBytes s.cnt)).goto 35
  let s3 : State := ((s2.logEvent .logDot).setNlOwed true).goto 26
  have shows : step s = .next s1 := step_of_exec running unarmed free (by rw [at_pc]; rfl) rfl
  have sends : step s1 = .next s2 := step_of_exec running unarmed free rfl rfl
  have logs : step s2 = .next s3 := step_of_exec running unarmed free rfl rfl
  calc core.run 3 s
      _ = core.run 2 s1 := run_of_step 2 shows
      _ = core.run 1 s2 := run_of_step 1 sends
      _ = .next s3 := run_of_step 0 logs
      _ = _ := by simp [s1, s2, s3, State.indicatorSet, State.emit, State.setNlOwed, State.goto]

/-- Settles O34: the poll ends on data at once or at its deadline, and each end has its rest of the tick. -/
theorem ticksRun : Obligations.TicksRun := by
  intro s running at_pc unarmed free go
  refine ⟨fun empty => ?_, fun data => ?_⟩
  · let polled : State := { s with cnt := s.cnt + 1, hit := false, now := s.now + s.params.tPollMs, pc := 33 }
    calc core.run (s.params.tPollMs + 7) s
        _ = core.run (3 + 2 + s.params.tPollMs + 2) s := congrArg (core.run · s) (by omega)
        _ = core.run 3 polled := run_polled 3 running unarmed free at_pc go (.inr ⟨rfl, empty, rfl⟩)
        _ = _ := run_timeoutTick (s := polled) running unarmed free rfl
        _ = _ := by simp [polled, at_pc]
  · let polled : State := { s with cnt := s.cnt + 1, hit := true, pc := 29 }
    calc core.run 8 s
        _ = core.run 4 polled := run_polled 4 running unarmed free at_pc go (.inl ⟨rfl, data, rfl⟩)
        _ = _ := run_dataTick (s := polled) running unarmed free rfl
        _ = _ := by simp [polled, at_pc]

end Sys2Proof.Machine
end

section
/-! `DECODE` reads UTF-8 and drops no failing byte (43_duplex_loop.md R196, log entry 8). -/
namespace Sys2Proof.Machine

/-! ## The pieces of a character's form -/

theorem byte_ofNat_toNat {x : Nat} (byte : x < 256) : (BitVec.ofNat 8 x).toNat = x := Nat.mod_eq_of_lt byte

/-- The last byte of a form adds its six bits and completes the character. -/
theorem utf8Pieces_last {x y lo hi : Nat} (bs : List Byte) (head : y = x / 64)
    (range : lo ≤ 0x80 + x % 64 ∧ 0x80 + x % 64 ≤ hi) :
    utf8Pieces (some ⟨y, 1, lo, hi⟩) (BitVec.ofNat 8 (0x80 + x % 64) :: bs) =
      some (Char.ofNat x) :: utf8Pieces none bs := by
  have byte : (BitVec.ofNat 8 (0x80 + x % 64)).toNat = 0x80 + x % 64 := byte_ofNat_toNat (by omega)
  have value : y * 64 + x % 64 = x := by omega
  simp [utf8Pieces, utf8Next, byte, range, value]

/-- A continuation byte before the last adds its six bits. -/
theorem utf8Pieces_continued {x y need lo hi : Nat} (bs : List Byte) (head : y = x / 64)
    (range : lo ≤ 0x80 + x % 64 ∧ 0x80 + x % 64 ≤ hi) :
    utf8Pieces (some ⟨y, need + 2, lo, hi⟩) (BitVec.ofNat 8 (0x80 + x % 64) :: bs) =
      utf8Pieces (some ⟨x, need + 1, 0x80, 0xBF⟩) bs := by
  have byte : (BitVec.ofNat 8 (0x80 + x % 64)).toNat = 0x80 + x % 64 := byte_ofNat_toNat (by omega)
  have value : y * 64 + x % 64 = x := by omega
  simp [utf8Pieces, utf8Next, byte, range, value]

/-- The first byte of a form of more than one byte begins the character, and completes nothing. -/
theorem utf8Pieces_lead {x : Nat} {u : Utf8Pending} (bs : List Byte) (byte : x < 256) (start : utf8Start x = ([], some u)) :
    utf8Pieces none (BitVec.ofNat 8 x :: bs) = utf8Pieces (some u) bs := by
  simp only [utf8Pieces, utf8Next, byte_ofNat_toNat byte, start, List.nil_append]

theorem utf8Start_two {x : Nat} (low : 2 ≤ x) (high : x < 0x20) :
    utf8Start (0xC0 + x) = ([], some ⟨x, 1, 0x80, 0xBF⟩) := by
  rw [utf8Start, if_neg (by omega), if_neg (by omega), if_pos (by omega), Nat.add_sub_cancel_left]

theorem utf8Start_three {x : Nat} (high : x < 0x10) :
    utf8Start (0xE0 + x) = ([], some ⟨x, 2, if x = 0 then 0xA0 else 0x80, if x = 0xD then 0x9F else 0xBF⟩) := by
  have surrogate_lead : 0xE0 + x = 0xED ↔ x = 0xD := by omega
  rw [utf8Start, if_neg (by omega), if_neg (by omega), if_neg (by omega), if_pos (by omega)]
  simp [surrogate_lead]

theorem utf8Start_four {x : Nat} (high : x < 5) :
    utf8Start (0xF0 + x) = ([], some ⟨x, 3, if x = 0 then 0x90 else 0x80, if x = 4 then 0x8F else 0xBF⟩) := by
  have last_lead : 0xF0 + x = 0xF4 ↔ x = 4 := by omega
  rw [utf8Start, if_neg (by omega), if_neg (by omega), if_neg (by omega), if_neg (by omega), if_pos (by omega)]
  simp [last_lead]

theorem char_toNat_scalar (c : Char) : c.toNat < 0xD800 ∨ 0xDFFF < c.toNat ∧ c.toNat < 0x110000 := c.valid

/-- The form of a character is read as the character. -/
theorem utf8Pieces_charUtf8 (c : Char) (bs : List Byte) :
    utf8Pieces none (charUtf8 c ++ bs) = some c :: utf8Pieces none bs := by
  have scalar := char_toNat_scalar c
  have value : Char.ofNat c.toNat = c := Char.ofNat_toNat c
  simp only [charUtf8]
  split_ifs with one two three
  · have byte : (BitVec.ofNat 8 c.toNat).toNat = c.toNat := byte_ofNat_toNat (by omega)
    simp [utf8Pieces, utf8Next, utf8Start, byte, value, Nat.le_of_lt_succ one]
  · have start := utf8Start_two (x := c.toNat / 64) (by omega) (by omega)
    simp only [List.cons_append, List.nil_append]
    rw [utf8Pieces_lead _ (by omega) start, utf8Pieces_last _ rfl (by omega), value]
  · have start := utf8Start_three (x := c.toNat / 4096) (by omega)
    simp only [List.cons_append, List.nil_append]
    rw [utf8Pieces_lead _ (by omega) start, utf8Pieces_continued _ (by omega) (by split_ifs <;> omega),
      utf8Pieces_last _ rfl (by omega), value]
  · have start := utf8Start_four (x := c.toNat / 262144) (by omega)
    simp only [List.cons_append, List.nil_append]
    rw [utf8Pieces_lead _ (by omega) start, utf8Pieces_continued _ (by omega) (by split_ifs <;> omega),
      utf8Pieces_continued _ (by omega) (by omega), utf8Pieces_last _ rfl (by omega), value]

/-! ## The pieces of a text's form, after any bytes -/

theorem textUtf8_cons (c : Char) (t : Text) : textUtf8 (c :: t) = charUtf8 c ++ textUtf8 t := List.flatMap_cons

theorem utf8Pieces_textUtf8 (t : Text) (bs : List Byte) :
    utf8Pieces none (textUtf8 t ++ bs) = t.map some ++ utf8Pieces none bs := by
  induction t with
  | nil => rfl
  | cons c t ih => rw [textUtf8_cons, List.append_assoc, utf8Pieces_charUtf8, ih]; rfl

/-- A character's form begins with no continuation byte. -/
theorem charUtf8_head (c : Char) : ∃ b tl, charUtf8 c = b :: tl ∧ (b.toNat < 0x80 ∨ 0xC0 ≤ b.toNat) := by
  have scalar := char_toNat_scalar c
  simp only [charUtf8]
  split_ifs <;> exact ⟨_, _, rfl, by simp only [BitVec.toNat_ofNat]; omega⟩

/-- A text after any bytes is read by itself, and so is what follows it. -/
theorem utf8Pieces_then_text (bs : List Byte) {t : Text} {cs : List Byte} (text : t ≠ [] ∨ cs = []) :
    utf8Pieces none (bs ++ (textUtf8 t ++ cs)) = utf8Pieces none bs ++ (t.map some ++ utf8Pieces none cs) := by
  rw [← utf8Pieces_textUtf8]
  refine utf8Pieces_append none trivial bs _ fun b tl head => ?_
  cases t with
  | nil => simp [textUtf8, text.resolve_left (by simp)] at head
  | cons c t =>
    obtain ⟨b', tl', form, lead⟩ := charUtf8_head c
    rw [textUtf8_cons, form] at head
    cases head
    exact lead

/-! ## Bytes that fail -/

theorem utf8Pieces_stray {b : Byte} (stray : 0x80 ≤ b.toNat ∧ b.toNat ≤ 0xC1 ∨ 0xF5 ≤ b.toNat) (bs : List Byte) :
    utf8Pieces none (b :: bs) = none :: utf8Pieces none bs := by
  have start : utf8Start b.toNat = ([none], none) := by
    rcases stray with ⟨low, high⟩ | high
    · rw [utf8Start, if_neg (by omega), if_pos (by omega)]
    · rw [utf8Start, if_neg (by omega), if_neg (by omega), if_neg (by omega), if_neg (by omega), if_neg (by omega)]
  simp [utf8Pieces, utf8Next, start]

/-- A byte that completes nothing leaves a character under way. -/
theorem utf8Next_under_way {pending : Option Utf8Pending} {b : Nat} (silent : (utf8Next pending b).1 = []) :
    (utf8Next pending b).2 ≠ none := by
  revert silent
  cases pending with
  | none => simp only [utf8Next, utf8Start]; split_ifs <;> simp
  | some u => simp only [utf8Next]; split_ifs <;> simp

/-- Where all bytes make one piece, a proper beginning of them makes one failing sequence. -/
theorem utf8Pieces_cut {pending : Option Utf8Pending} {cut missing : List Byte} {p : Option Char}
    (whole : utf8Pieces pending (cut ++ missing) = [p]) (begun : cut ≠ [] ∨ pending ≠ none) (proper : missing ≠ []) :
    utf8Pieces pending cut = [none] := by
  induction cut generalizing pending with
  | nil =>
    cases pending with
    | none => simp at begun
    | some u => rfl
  | cons b cut ih =>
    have later : utf8Pieces (utf8Next pending b.toNat).2 (cut ++ missing) ≠ [] :=
      utf8Pieces_ne_nil _ _ (.inl (by simp [proper]))
    simp only [List.cons_append, utf8Pieces] at whole ⊢
    have silent : (utf8Next pending b.toNat).1 = [] :=
      (List.append_eq_singleton_iff.mp whole).elim (fun h => h.1) fun h => absurd h.2 later
    rw [silent, List.nil_append] at whole ⊢
    exact ih whole (.inr (utf8Next_under_way silent))

theorem utf8Pieces_eq_nil_iff (bs : List Byte) : utf8Pieces none bs = [] ↔ bs = [] :=
  ⟨fun h => by_contra fun some_byte => utf8Pieces_ne_nil none bs (.inl some_byte) h, fun h => h ▸ rfl⟩

/-! ## From pieces to text -/

/-- What the `k`-th decoding other than the default keeps of the `n`-th run of failing sequences in `bs`. -/
def keptText (k : Nat) (bs : List Byte) (n : Nat) : Text := (Config.otherLossy k bs n).1 :: (Config.otherLossy k bs n).2

theorem keptText_ne_nil (k : Nat) (bs : List Byte) (n : Nat) : keptText k bs n ≠ [] := List.cons_ne_nil _ _

/-- The text that a `DECODE` makes of the pieces of the input `bs`, when `n` runs of failing sequences stand before them. -/
def textOfPieces (d : DecodeChoice) (bs : List Byte) (n : Nat) (ps : List (Option Char)) : Text :=
  match d with
  | .utf8Replacement => replaceFailures ps
  | .other k => replaceRuns (keptText k bs) false n ps

theorem decodeText_eq (d : DecodeChoice) (bs : List Byte) : decodeText d bs = textOfPieces d bs 0 (utf8Pieces none bs) := by
  cases d <;> rfl

section
variable (text : Nat → Text)

theorem replaceRuns_ne_nil (some_text : ∀ n, text n ≠ []) (n : Nat) {ps : List (Option Char)} (h : ps ≠ []) :
    replaceRuns text false n ps ≠ [] := by
  match ps with
  | some c :: ps => simp [replaceRuns]
  | none :: ps => simp [replaceRuns, some_text n]

/-- What stands after some pieces is replaced by itself, the runs begun before it counted. -/
theorem replaceRuns_append (inRun : Bool) (n : Nat) (ps : List (Option Char)) :
    ∃ r m, ∀ qs, replaceRuns text inRun n (ps ++ qs) = replaceRuns text inRun n ps ++ replaceRuns text r m qs := by
  induction inRun, n, ps using replaceRuns.induct with
  | case1 inRun n => exact ⟨inRun, n, fun qs => rfl⟩
  | case2 _ _ _ _ ih | case3 _ _ ih | case4 _ _ _ _ ih =>
    obtain ⟨r, m, rest⟩ := ih
    exact ⟨r, m, fun qs => by simp_all [replaceRuns]⟩

end

section
variable (d : DecodeChoice) (bs : List Byte) (n : Nat)

theorem textOfPieces_chars (t : Text) (ps : List (Option Char)) :
    textOfPieces d bs n (t.map some ++ ps) = t ++ textOfPieces d bs n ps := by
  cases d with
  | utf8Replacement => exact replaceFailures_chars t ps
  | other k => exact replaceRuns_chars _ false n t ps

theorem textOfPieces_eq_nil_iff (ps : List (Option Char)) : textOfPieces d bs n ps = [] ↔ ps = [] := by
  cases d with
  | utf8Replacement => exact List.map_eq_nil_iff
  | other k =>
    refine ⟨fun h => by_contra fun some_piece => replaceRuns_ne_nil _ (keptText_ne_nil k bs) n some_piece h, ?_⟩
    rintro rfl
    rfl

/-- A text that is not empty ends a run, so it stands by itself between what is before it and what follows. -/
theorem textOfPieces_then_text (ps : List (Option Char)) {t : Text} (some_text : t ≠ []) :
    ∃ m, ∀ qs,
      textOfPieces d bs n (ps ++ (t.map some ++ qs)) = textOfPieces d bs n ps ++ (t ++ textOfPieces d bs m qs) := by
  cases d with
  | utf8Replacement => exact ⟨n, fun qs => by simp [textOfPieces, replaceFailures, Function.comp_def]⟩
  | other k =>
    obtain ⟨r, m, split⟩ := replaceRuns_append (keptText k bs) false n ps
    refine ⟨m, fun qs => ?_⟩
    have no_run : (r && t.isEmpty) = false := by simp [some_text]
    simp only [textOfPieces, split, replaceRuns_chars, no_run]

/-! ## The whole input -/

/-- The parts of an input that follow a text are decoded in order: something of every stretch, and each text. -/
theorem textOfPieces_parts (parts : List (List Byte × Text)) (last : List Byte)
    (cut : ∀ p ∈ parts, p.1 ≠ [] ∧ p.2 ≠ []) :
    ∃ (kept : List Text) (keptLast : Text), kept.length = parts.length ∧ (∀ k ∈ kept, k ≠ []) ∧
      (keptLast = [] ↔ last = []) ∧
      textOfPieces d bs n (utf8Pieces none (parts.flatMap (fun p => p.1 ++ textUtf8 p.2) ++ last)) =
        (List.zipWith (fun k p => k ++ p.2) kept parts).flatten ++ keptLast := by
  induction parts generalizing n with
  | nil =>
    refine ⟨[], textOfPieces d bs n (utf8Pieces none last), rfl, by simp, ?_, rfl⟩
    rw [textOfPieces_eq_nil_iff, utf8Pieces_eq_nil_iff]
  | cons p parts ih =>
    obtain ⟨stretch, text⟩ := cut p (by simp)
    obtain ⟨m, split⟩ := textOfPieces_then_text d bs n (utf8Pieces none p.1) text
    obtain ⟨kept, keptLast, length, keeps, keepsLast, rest⟩ := ih m fun q hq => cut q (by simp [hq])
    refine ⟨textOfPieces d bs n (utf8Pieces none p.1) :: kept, keptLast, by simp [length], ?_, keepsLast, ?_⟩
    · exact List.forall_mem_cons.mpr ⟨by simp [textOfPieces_eq_nil_iff, utf8Pieces_eq_nil_iff, stretch], keeps⟩
    · simp only [List.flatMap_cons, List.append_assoc]
      rw [utf8Pieces_then_text _ (.inl text), split, ← List.append_assoc, rest]
      simp

end

/-- The text at the head of an input is decoded by itself. -/
theorem decodeText_textUtf8_append (d : DecodeChoice) (t : Text) (bs : List Byte) :
    decodeText d (textUtf8 t ++ bs) = t ++ textOfPieces d (textUtf8 t ++ bs) 0 (utf8Pieces none bs) := by
  rw [decodeText_eq, utf8Pieces_textUtf8, textOfPieces_chars]

theorem decodeText_textUtf8 (d : DecodeChoice) (t : Text) : decodeText d (textUtf8 t) = t := by
  have nothing_after := decodeText_textUtf8_append d t []
  have no_rest : textOfPieces d (textUtf8 t ++ []) 0 (utf8Pieces none []) = [] := (textOfPieces_eq_nil_iff ..).mpr rfl
  rwa [no_rest, List.append_nil, List.append_nil] at nothing_after

/-- A cut sequence between two texts is one failing sequence in the default. -/
theorem decodeText_cut {c : Char} {cut missing : List Byte} (form : charUtf8 c = cut ++ missing) (begun : cut ≠ [])
    (proper : missing ≠ []) (t t' : Text) :
    decodeText .utf8Replacement (textUtf8 t ++ cut ++ textUtf8 t') = t ++ [replacementChar] ++ t' := by
  have whole : utf8Pieces none (cut ++ missing) = [some c] := by simpa [form, utf8Pieces] using utf8Pieces_charUtf8 c []
  have failed : utf8Pieces none cut = [none] := utf8Pieces_cut whole (.inl begun) proper
  have pieces : utf8Pieces none (cut ++ textUtf8 t') = none :: t'.map some := by
    simpa [failed, utf8Pieces] using utf8Pieces_then_text cut (t := t') (.inr rfl)
  rw [List.append_assoc, decodeText_textUtf8_append, pieces]
  simp [textOfPieces, replaceFailures, Function.comp_def]

/-- Settles O36: by the pieces of each part of the input, and by the text that a `DECODE` makes of them. -/
theorem decodeReadsUtf8AndReplaces : Obligations.DecodeReadsUtf8AndReplaces := by
  refine ⟨decodeText_textUtf8, fun d t parts last cut => ?_, fun t b rest stray => ?_,
    fun t t' c cut missing form begun proper => ⟨1, Nat.one_pos, decodeText_cut form begun proper t t'⟩,
    fun d bs some_byte => ?_⟩
  · obtain ⟨kept, keptLast, length, keeps, keepsLast, rest⟩ :=
      textOfPieces_parts d (textUtf8 t ++ (parts.flatMap (fun p => p.1 ++ textUtf8 p.2) ++ last)) 0 parts last cut
    refine ⟨kept, keptLast, length, keeps, keepsLast, ?_⟩
    rw [List.append_assoc, decodeText_textUtf8_append, rest, List.append_assoc]
  · rw [decodeText_textUtf8_append, utf8Pieces_stray stray]
    rfl
  · rw [decodeText_eq, ne_eq, textOfPieces_eq_nil_iff, utf8Pieces_eq_nil_iff]
    exact some_byte

end Sys2Proof.Machine
end

section
/-! Pin writes that can fail: `SETPIN` and the target patterns, a draw for each write (60_exceptions.md R215, 20_memory.md
R57, log entries 4, 5 and 20). -/
namespace Sys2Proof.Machine

/-- Where pin writes can fail, the draw says which of a write's two ends is taken. -/
theorem State.pinWriteThen_drawn {s : State} (p : Line) (v : Level) (k : State → State)
    (unsure : s.params.pinWriteCanFail = true) :
    s.pinWriteThen p v k =
      if Config.pinWriteFails s.draws then s.drawn.raiseFatal .pinWriteFault else k (s.drawn.pinWrite p v) :=
  if_pos unsure

theorem State.drawn_pinWrite_advance_eq (s : State) (p : Line) (v : Level) :
    (s.drawn.pinWrite p v).advance =
      { s with
        pinA := (if p = .a then some v else s.pinA), pinB := (if p = .b then some v else s.pinB)
        trace := s.trace ++ [(.pin p v, s.now)], pc := s.pc + 1, draws := s.draws + 1 } := by
  cases p <;> rfl

/-- Settles O16: each row is a `PinWrite`, by its draw, and the pc update. -/
theorem setPinMayFail : Obligations.SetPinMayFail := by
  intro s i p v unsure row
  have runs : exec i s = .next (s.setPin p v) := by
    rcases row with ⟨rfl, rfl, rfl⟩ | ⟨rfl, rfl, rfl⟩ | ⟨rfl, rfl, rfl⟩ | ⟨rfl, rfl, rfl⟩ <;> rfl
  rw [runs, State.setPin_eq, State.pinWriteThen_drawn p v _ unsure, State.drawn_pinWrite_advance_eq]
  rfl

/-- Where pin writes can fail, a pattern is driven by two draws, the second taken where the first write does not fail. -/
theorem State.drivePins_drawn {s : State} (a b : Level) (unsure : s.params.pinWriteCanFail = true) :
    s.drivePins a b =
      if Config.pinWriteFails s.draws then s.drawn.raiseFatal .pinWriteFault
      else if Config.pinWriteFails (s.draws + 1) then (s.drawn.pinWrite .a a).drawn.raiseFatal .pinWriteFault
      else ((s.drawn.drawn.pinWrite .a a).pinWrite .b b).letSettle := by
  rw [State.drivePins, State.pinWriteThen_drawn .a a _ unsure, State.pinWriteThen_drawn .b b _ (by simpa using unsure)]
  rfl

/-- Settles O40: each row is the two `PinWrite`s of its pattern, by their draws. -/
theorem targetPatternsMayFail : Obligations.TargetPatternsMayFail := by
  intro s i v unsure row
  have runs : exec i s = .next (s.drivePins v v) := by
    rcases row with ⟨rfl, rfl⟩ | ⟨rfl, rfl, early⟩
    · rfl
    · simp [exec, execPinsConfiguration, State.configurationDone, early]
  rw [runs, State.drivePins_drawn v v unsure, State.pinWrites_letSettle_eq]
  simp [State.raiseFatal, State.setLatch, State.emit, State.drawn]

end Sys2Proof.Machine
end

section
/-! The fatal entry (60_exceptions.md R211, R214). -/
namespace Sys2Proof.Machine

/-- Of the moves of a running block the fatal entry alone leads to ERROR, and it writes nothing beside but the draws. -/
theorem BlockMove.fatal {s t : State} (m : BlockMove s t) (running : s.run = .run) (failed : t.run = .error) :
    ∃ n c, c ≠ .none ∧ t = ({ s with draws := n } : State).raiseFatal c := by
  cases m with
  | rejected s1 c at_pc drew code =>
    obtain ⟨n, rfl⟩ := eq_of_drew drew
    exact ⟨n, c, by rcases code with rfl | rfl <;> decide, rfl⟩
  | pinFault => exact ⟨s.draws + 1, .pinWriteFault, by decide, rfl⟩
  | pinWritten s1 p v drew =>
    obtain ⟨n, rfl⟩ := eq_of_drew drew
    simp [running] at failed
  | activity => simp [State.payNewline_eq, running] at failed
  | cancelled => cases failed
  | _ => simp [running] at failed

/-- Settles O45: of the agents the block alone ends its run, and its fatal move is the entry. -/
theorem fatalEntry : Obligations.FatalEntry := by
  refine ⟨fun _ _ => rfl, fun s t running hw h failed => ⟨State.blockReady_ended (by simp [failed]), ?_⟩,
    rfl, rfl, rfl, rfl, rfl⟩
  obtain ⟨rest, -, ⟨-, m⟩ | rfl | ⟨b, bs, rfl⟩ | ⟨v, rfl⟩ | rfl⟩ := run_move h hw
  · obtain ⟨n, c, code, rfl⟩ := m.fatal running failed
    exact ⟨c, code, rfl⟩
  all_goals simp [running] at failed

end Sys2Proof.Machine
end

section
/-! Every step of the hardwired machine answers (60_exceptions.md R216, R217, R251). -/
namespace Sys2Proof.Machine

theorem earliestTurn_answers {s : State} (control : s.ControlInv) (history : s.HistoryInv) :
    ∃ t, earliestTurn s = .next t := by
  rw [earliestTurn]
  split
  · exact blockStep_answers control history
  · exact ⟨_, rfl⟩

theorem blockTurn_answers {s : State} (control : s.ControlInv) (history : s.HistoryInv) :
    ∃ t, blockTurn s = .next t := by
  rw [blockTurn]
  split
  · exact blockStep_answers control history
  · exact ⟨_, rfl⟩

/-- Settles O59: by the turn at the head of the agenda, which is no probe. -/
theorem safeStatesAlwaysStep : Obligations.SafeStatesAlwaysStep := by
  intro s control history
  simp only [step, takeTurn]
  split
  · exact earliestTurn_answers control history
  · next rest head =>
    have ahead := control.hardwired.rest (.inr ⟨_, head⟩)
    exact blockTurn_answers (controlInv_keptByAgents.agenda control ahead) (historyInv_keptByAgents.agenda history ahead)
  · exact ⟨_, rfl⟩
  · split
    · exact ⟨_, rfl⟩
    · exact earliestTurn_answers control history
  · next n w rest head => exact absurd head (control.hardwired.no_probe n w rest)

end Sys2Proof.Machine
end

section
/-! A byte row inside a settle window (10_state.md R26, 70_reset_and_hazards.md R243). -/
namespace Sys2Proof.Machine

/-- Every byte row of the table is an emission of its own bytes. -/
theorem exec_eq_emitOnUart {i : Instr} {bs : List Byte} (coded : encode i = .bytes bs) (s : State) :
    exec i s = emitOnUart bs s := by
  cases i with
  | frameQv | frameRc | frameWc | msgHeartbeat | msgReply => cases coded; rfl
  | _ => cases coded

theorem State.inSettleWindow_iff (s : State) :
    s.inSettleWindow = true ↔ 1 ≤ s.pc ∧ s.pc ≤ 4 ∨ 21 ≤ s.pc ∧ s.pc ≤ 24 := by
  simp [State.inSettleWindow]

theorem State.pinJustWritten_of_recent {s : State} {p : Line} {v : Level} {t : Nat}
    (written : (Event.pin p v, t) ∈ s.trace) (recent : s.now < t + 50) : s.pinJustWritten = true :=
  List.any_eq_true.mpr ⟨_, written, decide_eq_true recent⟩

/-- Settles O38: the pc or the pin write closes the one gate that every byte row passes. -/
theorem settleWindowRefusesBytes : Obligations.SettleWindowRefusesBytes := by
  intro s i bs coded window
  rw [exec_eq_emitOnUart coded]
  apply emitOnUart_refused
  rcases window with early | late | ⟨p, v, t, written, recent⟩
  · exact .inl (s.inSettleWindow_iff.mpr (.inl early))
  · exact .inl (s.inSettleWindow_iff.mpr (.inr late))
  · exact .inr (State.pinJustWritten_of_recent written recent)

end Sys2Proof.Machine
end
